-- ==== Sys2Proof/Word.lean ====
section
/-! DEFINITION. The word types of the block (00_scope.md R7, R9; 10_state.md R21). -/

namespace Sys2Proof

/-- 00_scope.md R7: a byte is 8 bits, bit 0 the least significant. `TRIES` is as wide (`Config.fixed.wTries` = 8). -/
abbrev Byte := BitVec 8

/-- 00_scope.md R9: a `u16`; the width of a word count is decision D35 (`Config.fixed.wWc` = 16). -/
abbrev Half := BitVec 16

/-- 10_state.md R21: a value written to the request port `HREQ`, 40 bits. -/
abbrev ReqWord := BitVec 40

end Sys2Proof
end

