-- ==== Sys2Proof/Config.lean ====
section
/-! DEFINITION. What an implementation fixes (00_scope.md R6), and the free values the spec leaves open. -/

namespace Sys2Proof

/-- 00_scope.md R6, `WRITE_LEN_MODE`; decision D8 calls it a parameter. -/
inductive WriteLenMode where
  | lowByte
  | full16
  deriving DecidableEq, Repr, Inhabited

/-- The parameters that 92_eei_decisions.md says a model must not fix (D8, D20, D21, D23), with the widths of
00_scope.md R6. Every state carries one `Build`, no step changes it, and a claim over all states is a claim over
all builds (DESIGN CHOICE, safe: log entry 2). `pollDelay` and `devAddr` are read by no rule (R135, R6). -/
structure Build where
  retryBudget  : Byte
  writeLenMode : WriteLenMode
  pollDelay    : Nat
  devAddr      : Nat
  deriving DecidableEq, Repr

/-- 10_state.md R29: the decoded status, "`{ status_code: signed 8-bit, booted: bool, boot_mode: bool, busy: bool }`".
`code` holds the register's 8 bits; `sext8` reads them as the signed number. -/
structure DeviceStatus where
  code     : Byte
  booted   : Bool
  bootMode : Bool
  busy     : Bool
  deriving DecidableEq, Repr, Inhabited

/-- One answer of the device side to a `BusRead` (00_scope.md R10, R15): a count `r >= 0` with exactly `r` bytes, or a
negative result. `failed k` is the negative result `-(k + 1)`, so that every integer is the count of some answer. -/
inductive ReadAnswer where
  | delivered (bytes : List Byte)
  | failed (k : Nat)
  deriving DecidableEq, Repr, Inhabited

/-- The parameters of 00_scope.md R6 that have one value in every build: "fixed by the sensor's protocol, not
configurable", or decided exactly (D9, D35, and the width of D21). -/
structure FixedParameters where
  /-- `CAP_BYTES`: the capacity of each of `TXBUF` and `RXBUF` in payload bytes -/
  capBytes      : Nat
  /-- `CAP_WORDS` -/
  capWords      : Nat
  /-- `W_TRIES`: the width of `TRIES` -/
  wTries        : Nat
  /-- `W_WC`: the width of a word count -/
  wWc           : Nat
  /-- `REG_POWER`, an address the engine never generates (10_state.md R52) -/
  regPower      : Byte
  /-- `REG_STATUS` -/
  regStatus     : Byte
  /-- `REG_COMMAND` -/
  regCommand    : Byte
  /-- `REG_DATA_LENGTH` -/
  regDataLength : Byte
  /-- `REG_DATA0` -/
  regData0      : Byte
  /-- `OEM_BIT`: the flag or-ed into the module byte -/
  oemBit        : Byte
  /-- `MODULE_MASK`: the mask applied to the module id -/
  moduleMask    : Byte
  deriving DecidableEq, Repr

/-- The configuration of a machine: a field for every parameter of 00_scope.md R6 (log entry 28). -/
structure Configuration extends FixedParameters, Build where
  deriving DecidableEq, Repr

/-- 00_scope.md R6, the column "value", of the parameters with one value. -/
abbrev Config.fixed : FixedParameters :=
  { capBytes := 1024
    capWords := 512
    wTries := 8
    wWc := 16
    regPower := 0x00#8
    regStatus := 0x02#8
    regCommand := 0x04#8
    regDataLength := 0x06#8
    regData0 := 0x08#8
    oemBit := 0x40#8
    moduleMask := 0x0F#8 }

/-- The whole configuration of a build. -/
def Build.configuration (b : Build) : Configuration := { toFixedParameters := Config.fixed, toBuild := b }

abbrev Config.capBytes : Nat := Config.fixed.capBytes
abbrev Config.capWords : Nat := Config.fixed.capWords
abbrev Config.regStatus : Byte := Config.fixed.regStatus
abbrev Config.regCommand : Byte := Config.fixed.regCommand
abbrev Config.regDataLength : Byte := Config.fixed.regDataLength
abbrev Config.regData0 : Byte := Config.fixed.regData0
abbrev Config.oemBit : Byte := Config.fixed.oemBit
abbrev Config.moduleMask : Byte := Config.fixed.moduleMask

/-- What 00_scope.md R6 says of its parameters among themselves: the capacity in words is half the capacity in bytes, the
retry budget fits the counter, and a word count can be any legal one. -/
def Configuration.wf (c : Configuration) : Bool :=
  c.capBytes == 2 * c.capWords && c.retryBudget.toNat < 2 ^ c.wTries && c.capWords < 2 ^ c.wWc

/-- 00_scope.md R6: `DEV_ADDR` is OPEN. A free value; no rule reads it. -/
opaque Config.devAddr : Nat

/-- The count the device side answers to the `BusWrite` made at tick `t` when no answer is listed: any integer
(00_scope.md R15, 93 U9). A free value. -/
opaque Config.freeCount : Nat → Int

/-- The answer of the device side to the `BusRead` made at tick `t` when no answer is listed: any answer
(00_scope.md R15, 93 U9). A free value. -/
opaque Config.freeRead : Nat → ReadAnswer

/-- The byte that stands for `TXBUF[i]`, never written since reset, when it is used at tick `t`
(10_state.md R56, 93 U6). A free value. -/
opaque Config.freeTxByte : Nat → Nat → Byte

/-- The byte that stands for `RXBUF[i]` at tick `t` where the spec gives it no value: never written (10_state.md R56,
93 U7), or after a failed data read (44_engine_operations.md R168, 93 U8). A free value. -/
opaque Config.freeRxByte : Nat → Nat → Byte

/-- What `STAT` holds after the reset released at tick `t`, until the first successful probe: "no value"
(10_state.md R30, R56, 93 U5). A free value. -/
opaque Config.freeStatus : Nat → DeviceStatus

/-- 00_scope.md R6, the column "value": `RETRY_BUDGET` = 10, `WRITE_LEN_MODE` = `LOW_BYTE`, `POLL_DELAY` = 0,
`DEV_ADDR` OPEN. -/
def Config.hardware : Build :=
  { retryBudget := 10#8, writeLenMode := .lowByte, pollDelay := 0, devAddr := Config.devAddr }

end Sys2Proof
end

