-- ==== Sys2Proof/Syntax.lean ====
section
/-! DEFINITION. The instructions: one constructor per row of spec/opcode_table.json. -/

namespace Sys2Proof

/-- 00_scope.md R13: "`{AGC=0x01, SYS=0x02, VID=0x03, OEM=0x80, RAD=0xE0}`"; the values are `ModuleId.code`. -/
inductive ModuleId where
  | agc | sys | vid | oem | rad
  deriving DecidableEq, Repr

/-- 00_scope.md R13: "`{GET=0x0, SET=0x1, RUN=0x2}`"; the values are `Opcode.code`. -/
inductive Opcode where
  | get | set | run
  deriving DecidableEq, Repr

/-- The 25 rows of spec/opcode_table.json. A host request carries the fields of `HREQ` (10_state.md R21) as they
stand, legal or not, since the start step judges them. A frame or a response carries the variable bytes of its format
(30_encoding.md R90). A primitive carries its operands. -/
inductive Instr where
  -- host requests
  | readData (module cmdid : Byte) (wc : Half)
  | writeData (module cmdid : Byte) (wc : Half)
  | hreqRun (module cmdid : Byte) (wc : Half)
  | hreqOp3 (module cmdid : Byte) (wc : Half)
  -- bus frames, engine to device
  | statusSel
  | dataSel
  | lenRd (len : Half)
  | lenWr (len : Half)
  | cmdAgc (opcodeByte : Byte)
  | cmdSys (opcodeByte : Byte)
  | cmdVid (opcodeByte : Byte)
  | cmdOem (opcodeByte : Byte)
  | cmdRad (opcodeByte : Byte)
  | dataWr (payload : List Byte)
  -- bus responses, device to engine
  | statusRsp (b0 b1 : Byte)
  | dataRsp (payload : List Byte)
  -- primitives
  | probe
  | waitReady (maxTries : Byte)
  | swap16 (v : Half)
  | decodeStatus (b0 b1 : Byte)
  | encCmd (module : ModuleId) (cid : Byte) (op : Opcode)
  | encLenRd (wc : Half)
  | encLenWr (wc : Half)
  | packWrite (data : List Byte) (wc : Half)
  | unpackRead (raw : List Byte) (wc : Half)
  deriving DecidableEq, Repr

end Sys2Proof
end

