-- ==== Sys2Proof/Machine/Operands.lean ====
section
/-! DEFINITION. The pure functions of the block: byte order, the module and opcode bytes, the frames, the payload. -/

namespace Sys2Proof.Machine

/-- 00_scope.md R9: `hi8(w) = w[15:8]`. -/
def hi8 (w : Half) : Byte := BitVec.ofNat 8 (w.toNat / 256)

/-- 00_scope.md R9: `lo8(w) = w[7:0]`. -/
def lo8 (w : Half) : Byte := BitVec.ofNat 8 (w.toNat % 256)

/-- 00_scope.md R9: `be16(h, l) = h * 256 + l`, the high byte first. -/
def be16 (h l : Byte) : Half := BitVec.ofNat 16 (h.toNat * 256 + l.toNat)

/-- 00_scope.md R9: the byte as a two's complement number (decision D4). -/
def sext8 (b : Byte) : Int := if b.toNat < 128 then b.toNat else (b.toNat : Int) - 256

/-- 43_payload_transfer.md R154: `SWAP16(v) = ((v & 0x00FF) << 8) | ((v >> 8) & 0x00FF)`. -/
def swapBytes (v : Half) : Half := ((v &&& 0x00FF#16) <<< 8) ||| ((v >>> 8) &&& 0x00FF#16)

/-- 00_scope.md R13: the values of `ModuleId`. -/
def ModuleId.code : ModuleId → Byte
  | .agc => 0x01#8
  | .sys => 0x02#8
  | .vid => 0x03#8
  | .oem => 0x80#8
  | .rad => 0xE0#8

/-- The `ModuleId` a byte is the value of, if any (30_encoding.md R97). -/
def ModuleId.ofByte (b : Byte) : Option ModuleId :=
  if b = 0x01#8 then some .agc
  else if b = 0x02#8 then some .sys
  else if b = 0x03#8 then some .vid
  else if b = 0x80#8 then some .oem
  else if b = 0xE0#8 then some .rad
  else none

/-- 00_scope.md R13: the values of `Opcode`. -/
def Opcode.code : Opcode → Byte
  | .get => 0#8
  | .set => 1#8
  | .run => 2#8

/-- 30_encoding.md R98: `(M & 0x0F) | (0x40 if M = 0x80 or M = 0xE0 else 0x00)`. -/
def moduleByte (m : ModuleId) : Byte :=
  (ModuleId.code m &&& Config.moduleMask) |||
    (if ModuleId.code m = 0x80#8 ∨ ModuleId.code m = 0xE0#8 then Config.oemBit else 0x00#8)

/-- 30_encoding.md R99: `(cid + op) mod 256` (decision D5). -/
def opcodeByte (cid : Byte) (op : Opcode) : Byte := cid + Opcode.code op

/-- 30_encoding.md R91: `STATUS_SEL = [0x00, 0x02]`. -/
def statusSelFrame : List Byte := [0x00#8, Config.regStatus]

/-- 30_encoding.md R91: `DATA_SEL = [0x00, 0x08]`. -/
def dataSelFrame : List Byte := [0x00#8, Config.regData0]

/-- 30_encoding.md R93: the command frame with module byte `mb` and opcode byte `k`. -/
def commandFrame (mb k : Byte) : List Byte := [0x00#8, Config.regCommand, mb, k]

/-- 30_encoding.md R92: a length frame with the 16-bit length field `len`, high byte first. -/
def lengthFrame (len : Half) : List Byte := [0x00#8, Config.regDataLength, hi8 len, lo8 len]

/-- 30_encoding.md R94: the payload frame, one run of bytes after the address of Data 0. -/
def payloadFrame (p : List Byte) : List Byte := [0x00#8, Config.regData0] ++ p

/-- 42_command_encoder.md R140: `ENC_CMD(module, cid, op)`. -/
def encodeCommand (m : ModuleId) (cid : Byte) (op : Opcode) : List Byte :=
  commandFrame (moduleByte m) (opcodeByte cid op)

/-- 42_command_encoder.md R141: `ENC_LEN_RD(wc)`. -/
def encodeLenRd (wc : Half) : List Byte := lengthFrame wc

/-- 42_command_encoder.md R142: the length field of the write form, `lo8(wc)` alone under `LOW_BYTE`, all of `wc` under
`FULL16` (decision D8). -/
def writeLenField (mode : WriteLenMode) (wc : Half) : Half :=
  match mode with
  | .lowByte => be16 0x00#8 (lo8 wc)
  | .full16 => wc

/-- 42_command_encoder.md R142: `ENC_LEN_WR(wc)`. -/
def encodeLenWr (mode : WriteLenMode) (wc : Half) : List Byte := lengthFrame (writeLenField mode wc)

/-- 44_engine_operations.md R168, R170: the byte length of a payload of `wc` words, on natural numbers (30_encoding.md
R101: it cannot wrap). -/
def byteLen (wc : Half) : Nat := 2 * wc.toNat

/-- 43_payload_transfer.md R150: `PACK_WRITE(data, wc) = [0x00, 0x08] ++ data[0 .. 2*wc]`. -/
def packPayload (data : List Byte) (wc : Half) : List Byte := payloadFrame (data.take (byteLen wc))

/-- 43_payload_transfer.md R151: `UNPACK_READ(raw, wc) = raw[0 .. 2*wc]`; no byte is swapped, dropped or checked. -/
def unpackPayload (raw : List Byte) (wc : Half) : List Byte := raw.take (byteLen wc)

/-- 10_state.md R21: the request word with `ZERO = 0`: `OP * 2^32 + MODULE * 2^24 + CMDID * 2^16 + WC`. -/
def requestWord (op : BitVec 2) (module cmdid : Byte) (wc : Half) : ReqWord :=
  BitVec.ofNat 40 (op.toNat * 4294967296 + module.toNat * 16777216 + cmdid.toNat * 65536 + wc.toNat)

/-- 10_state.md R21: the request word as five bytes, most significant first. -/
def requestBytes (q : ReqWord) : List Byte :=
  [BitVec.ofNat 8 (q.toNat / 4294967296), BitVec.ofNat 8 (q.toNat / 16777216), BitVec.ofNat 8 (q.toNat / 65536),
   BitVec.ofNat 8 (q.toNat / 256), BitVec.ofNat 8 q.toNat]

end Sys2Proof.Machine
end

