-- ==== Sys2Proof/Machine/State.lean ====
section
/-! DEFINITION. The state of the block as 10_state.md R20 lists it, the outside world as plain data, the reasons a step
can stop, and the state after reset. -/

namespace Sys2Proof.Machine

/-- A buffer (20_memory.md R60): cells in rising index order, each index below 1024. A byte with no cell HOLDS NO VALUE
(10_state.md R56); the operations that need one draw it (log entry 5). -/
abbrev Memory := List Host.Cell

/-- 10_state.md R33: the values of `PHASE`, the block's program counter; 12 to 15 are never taken. -/
inductive Phase where
  | idle
  | rdWaitA | rdLen | rdCmd | rdWaitB | rdSel | rdData
  | wrWaitA | wrData | wrLen | wrCmd | wrWaitB
  deriving DecidableEq, Repr

/-- 10_state.md R34: the position inside one probe, `P_SEL` or `P_READ`. -/
inductive Poll where
  | sel | read
  deriving DecidableEq, Repr

/-- 10_state.md R35: the state of the ready-synchronizer; 3 is never taken. -/
inductive Sync where
  | polling | ready | timedOut
  deriving DecidableEq, Repr

/-- 10_state.md R39: how the last request ended; 5 to 7 are never taken. -/
inductive ResKind where
  | ok | notReady | busError | capacityError | illegalRequest
  deriving DecidableEq, Repr

/-- 00_scope.md R16: one event of the bus trace, `W(s, r)` or `R(n, r, b)`. -/
inductive BusEvent where
  | wrote (frame : List Byte) (count : Int)
  | readBack (asked : Nat) (count : Int) (bytes : List Byte)
  deriving DecidableEq, Repr

/-- 41_ready_synchronizer.md R130: `READY | TIMEDOUT(booted, busy) | BUS_ERROR`. -/
inductive WaitResult where
  | ready
  | timedOut (booted busy : Bool)
  | busError
  deriving DecidableEq, Repr

/-- The result a primitive called on its own gives. -/
inductive UnitOut where
  /-- none was called yet -/
  | nothing
  /-- `PROBE -> ok | BUS_ERROR` (40_status_probe.md R121), with the status read -/
  | probed (s : Option DeviceStatus)
  /-- `WAIT_READY` (41_ready_synchronizer.md R130) -/
  | waited (r : WaitResult)
  /-- `SWAP16` (43_payload_transfer.md R154) -/
  | half (v : Half)
  /-- `DECODE_STATUS` (40_status_probe.md R120) -/
  | status (s : DeviceStatus)
  /-- the encoders and the marshaller (42_command_encoder.md R140 to R142, 43_payload_transfer.md R150, R151) -/
  | bytes (b : List Byte)
  deriving DecidableEq, Repr

/-- What the host, or the platform, does next (10_state.md R21, R26, R27, R38 to R46, R56). -/
inductive HostAct where
  /-- the host lets the engine step (log entry 1) -/
  | pass
  /-- the reset input (70_reset_and_hazards.md R220, R221) -/
  | reset
  | writeHreq (q : ReqWord)
  | writeTx (i : Fin 1024) (b : Byte)
  | readTx (i : Fin 1024)
  | readRx (i : Fin 1024)
  | readHstat
  | readKind
  | readStatus
  | readLen
  | readFlags
  | readStat
  | readSync
  /-- the stateless byte-swap unit offered to the host (43_payload_transfer.md R154, decision D33) -/
  | swap16 (v : Half)
  deriving DecidableEq, Repr

/-- The value a host read returned. -/
inductive HostReply where
  | byte (b : Byte)
  | hstat (v : Byte)
  | kind (v : BitVec 3)
  | status (v : Byte)
  | len (v : Half)
  | flags (v : BitVec 2)
  | stat (s : DeviceStatus)
  | sync (v : BitVec 2)
  | half (v : Half)
  deriving DecidableEq, Repr

/-- The model's own fields, no state of the hardware (10_state.md R54, R55): the accesses the host will make and the
values it was given (log entry 1); a primitive called on its own and the last such result (log entry 8); the answers the
device side will give to `BusWrite` and to `BusRead`, in order (log entry 3); the bus trace, oldest event first (00_scope.md
R16, log entry 14); and the counter that the free values are drawn with (log entry 3). -/
structure World where
  host         : List HostAct
  hostLog      : List HostReply
  call         : Option Instr
  unitOut      : UnitOut
  writeAnswers : List Int
  readAnswers  : List ReadAnswer
  trace        : List BusEvent
  tick         : Nat
  deriving DecidableEq, Repr

/-- 10_state.md R20, component by component; then the parameters of the build (log entry 2) and the world outside. -/
structure State where
  /-- R21: the request port: a value written and not yet taken, or nothing. -/
  hreq      : Option ReqWord
  /-- R22 -/
  rOp       : BitVec 2
  /-- R23 -/
  rModule   : Byte
  /-- R24 -/
  rCmdid    : Byte
  /-- R25 -/
  rWc       : Half
  /-- R26 -/
  txbuf     : Memory
  /-- R27 -/
  rxbuf     : Memory
  /-- R29: the status latch -/
  stat      : DeviceStatus
  /-- R32, R33 -/
  phase     : Phase
  /-- R34 -/
  poll      : Poll
  /-- R35 -/
  sync      : Sync
  /-- R36 -/
  tries     : Byte
  /-- R38: `HSTAT.BUSY`, bit 0 -/
  busy      : Bool
  /-- R38: `HSTAT.DONE`, bit 1 -/
  done      : Bool
  /-- R30, R38: `HSTAT.SV`, bit 2 -/
  sv        : Bool
  /-- R39 -/
  resKind   : ResKind
  /-- R40: the register's 8 bits; `sext8` reads them as the signed number -/
  resStatus : Byte
  /-- R41 -/
  resLen    : Half
  /-- R42: bit 1 booted, bit 0 busy -/
  resFlags  : BitVec 2
  build     : Build
  world     : World
  deriving DecidableEq, Repr

/-- Why the machine stops. No result kind of the spec stops it: those are next states. -/
inductive Fault where
  /-- Raised by the sequencer in `RD_DATA` and `WR_DATA`, and by `DATA_RSP`, when the payload needs a buffer index of 1024
  or more, which does not exist (10_state.md R26, R27). No run reaches it: `R_WC <= 512` (R25). Safe: log entry 23. -/
  | bufferIndex
  /-- Raised by the sequencer in `RD_CMD` and `WR_CMD` when `R_MODULE` holds no `ModuleId`, for which `ENC_CMD` is not
  defined (42_command_encoder.md R140). No run reaches it: 10_state.md R23. Safe: log entry 23. -/
  | moduleUndefined
  deriving DecidableEq, Repr

/-- Why the model gives no meaning. -/
inductive Refusal where
  /-- Raised by no meaning: an arm of `exec` that has none. No arm is such. -/
  | notModelled (mnemonic : String)
  /-- Raised by `LEN_WR`, `DATA_WR`, `DATA_RSP`, `PACK_WRITE`, `UNPACK_READ` on a term that is not well formed
  (`Instr.wellFormed`), which no bytes decode to and the spec gives no meaning. Safe: log entry 23. -/
  | illFormedOperand
  /-- Raised by `step` where the bytes of a slot are rejected; the sequencer's own frames and responses never are.
  Safe: log entry 23. -/
  | undecodable
  deriving DecidableEq, Repr

/-- Nothing has happened and nothing is listed. -/
def World.start : World :=
  { host := [], hostLog := [], call := none, unitOut := .nothing, writeAnswers := [], readAnswers := [],
    trace := [], tick := 0 }

/-- 10_state.md R56: every register at its reset value. `STAT` holds no value, which the free value stands for (log entry
4); `TXBUF` and `RXBUF` have no cell (log entry 5). -/
def State.afterReset (build : Build) (world : World) : State :=
  { hreq := none
    rOp := 0#2
    rModule := 0#8
    rCmdid := 0#8
    rWc := 0#16
    txbuf := []
    rxbuf := []
    stat := Config.freeStatus world.tick
    phase := .idle
    poll := .sel
    sync := .polling
    tries := 0#8
    busy := false
    done := false
    sv := false
    resKind := .ok
    resStatus := 0#8
    resLen := 0#16
    resFlags := 0#2
    build := build
    world := world }

/-- The machine right after reset (10_state.md R56), built with the values of 00_scope.md R6. -/
def State.reset : State := State.afterReset Config.hardware World.start

end Sys2Proof.Machine
end

