-- ==== Sys2Proof/Machine/Flags.lean ====
section
/-! DEFINITION. The status decoder, the ready test, and the register views and numbers of 10_state.md. -/

namespace Sys2Proof.Machine

/-- 40_status_probe.md R120: `code = sext8(b0)`, held as its 8 bits; `booted = b1[2]`, `boot_mode = b1[1]`, `busy = b1[0]`
(decision D2); bits 7:3 of `b1` do not affect the result (decision D3). -/
def decodeStatusBytes (b0 b1 : Byte) : DeviceStatus :=
  { code := b0, booted := b1.getLsbD 2, bootMode := b1.getLsbD 1, busy := b1.getLsbD 0 }

/-- 41_ready_synchronizer.md R131: ready is `booted = 1` and `busy = 0`. -/
def DeviceStatus.isReady (s : DeviceStatus) : Bool := s.booted && !s.busy

/-- 10_state.md R42: `RES_FLAGS = booted * 2 + busy`, the two bits kept apart (decision D26). -/
def flagsOf (booted busy : Bool) : BitVec 2 := BitVec.ofNat 2 (booted.toNat * 2 + busy.toNat)

/-- 10_state.md R38: `HSTAT` as the host reads it: bit 0 `BUSY`, bit 1 `DONE`, bit 2 `SV`, bits 7:3 read as 0. -/
def State.hstat (s : State) : Byte :=
  BitVec.ofNat 8 (s.busy.toNat + 2 * s.done.toNat + 4 * s.sv.toNat)

/-- 10_state.md R33: the numbers of `PHASE`. -/
def Phase.code : Phase → BitVec 4
  | .idle => 0#4
  | .rdWaitA => 1#4
  | .rdLen => 2#4
  | .rdCmd => 3#4
  | .rdWaitB => 4#4
  | .rdSel => 5#4
  | .rdData => 6#4
  | .wrWaitA => 7#4
  | .wrData => 8#4
  | .wrLen => 9#4
  | .wrCmd => 10#4
  | .wrWaitB => 11#4

/-- 10_state.md R34: the numbers of `POLL`. -/
def Poll.code : Poll → BitVec 1
  | .sel => 0#1
  | .read => 1#1

/-- 10_state.md R35: the numbers of `SYNC`. -/
def Sync.code : Sync → BitVec 2
  | .polling => 0#2
  | .ready => 1#2
  | .timedOut => 2#2

/-- 10_state.md R39: the numbers of `RES_KIND`. -/
def ResKind.code : ResKind → BitVec 3
  | .ok => 0#3
  | .notReady => 1#3
  | .busError => 2#3
  | .capacityError => 3#3
  | .illegalRequest => 4#3

/-- 41_ready_synchronizer.md R132: the four wait phases. -/
def Phase.isWait : Phase → Bool
  | .rdWaitA => true
  | .rdWaitB => true
  | .wrWaitA => true
  | .wrWaitB => true
  | .idle => false
  | .rdLen => false
  | .rdCmd => false
  | .rdSel => false
  | .rdData => false
  | .wrData => false
  | .wrLen => false
  | .wrCmd => false

/-- 10_state.md R37: the next phase of the operation's list. -/
def Phase.next : Phase → Phase
  | .idle => .idle
  | .rdWaitA => .rdLen
  | .rdLen => .rdCmd
  | .rdCmd => .rdWaitB
  | .rdWaitB => .rdSel
  | .rdSel => .rdData
  | .rdData => .idle
  | .wrWaitA => .wrData
  | .wrData => .wrLen
  | .wrLen => .wrCmd
  | .wrCmd => .wrWaitB
  | .wrWaitB => .idle

end Sys2Proof.Machine
end

