-- ==== Sys2Proof/WellFormed.lean ====
section
/-! DEFINITION. Which terms of `Instr` are instructions of a build. -/

namespace Sys2Proof

/-- A payload is a whole number of words and fits the buffers: `2*wc` bytes with `wc <= 512`
(20_memory.md R69, 30_encoding.md R94, R96). -/
def payloadOk (p : List Byte) : Bool :=
  p.length % 2 == 0 && p.length ≤ Config.capBytes

/-- The operands each row admits. A request is well formed whatever its fields: the start step refuses the illegal ones
with an effect of their own (44_engine_operations.md R161). Under `LOW_BYTE` the high length byte of `LEN_WR` is always
0x00 (30_encoding.md R105). `PACK_WRITE` takes at least `2*wc` bytes and `UNPACK_READ` exactly `2*wc`, with
`wc <= 512` (43_payload_transfer.md R150, R151). -/
def Instr.wellFormed (mode : WriteLenMode) : Instr → Bool
  | .readData _ _ _ => true
  | .writeData _ _ _ => true
  | .hreqRun _ _ _ => true
  | .hreqOp3 _ _ _ => true
  | .statusSel => true
  | .dataSel => true
  | .lenRd _ => true
  | .lenWr len => mode == .full16 || len.toNat < 256
  | .cmdAgc _ => true
  | .cmdSys _ => true
  | .cmdVid _ => true
  | .cmdOem _ => true
  | .cmdRad _ => true
  | .dataWr p => payloadOk p
  | .statusRsp _ _ => true
  | .dataRsp p => payloadOk p
  | .probe => true
  | .waitReady _ => true
  | .swap16 _ => true
  | .decodeStatus _ _ => true
  | .encCmd _ _ _ => true
  | .encLenRd _ => true
  | .encLenWr _ => true
  | .packWrite d wc => wc.toNat ≤ Config.capWords && 2 * wc.toNat ≤ d.length
  | .unpackRead r wc => wc.toNat ≤ Config.capWords && r.length == 2 * wc.toNat

end Sys2Proof
end

