-- ==== Sys2Proof/Machine/Ops.lean ====
section
/-! DEFINITION. The named operations: the buffers, the bus, the error entry and the normal end, the wait, the start step. -/

namespace Sys2Proof.Machine

/-! ### The buffers -/

/-- The byte a buffer holds at an index; `none` where it holds no value (10_state.md R56). -/
def Memory.read (m : Memory) (a : Nat) : Option Byte :=
  match m with
  | [] => none
  | (k, v) :: rest => if k = a then some v else Memory.read rest a

/-- A byte is written: its cell is set, or put in its place in the rising order. -/
def Memory.write (m : Memory) (a : Nat) (b : Byte) : Memory :=
  match m with
  | [] => [(a, b)]
  | (k, v) :: rest =>
    if a < k then (a, b) :: (k, v) :: rest
    else if a = k then (a, b) :: rest
    else (k, v) :: Memory.write rest a b

/-- A run of bytes is written at rising indexes from `a`. -/
def Memory.writeRun (m : Memory) (a : Nat) (bs : List Byte) : Memory :=
  match bs with
  | [] => m
  | b :: rest => Memory.writeRun (Memory.write m a b) (a + 1) rest

/-- Every index of `m` is above `a`. -/
def Memory.above (a : Nat) (m : Memory) : Bool := m.all fun c => a < c.1

/-- The canonical form: indexes strictly rising and below the capacity (10_state.md R26, R27). An unlisted byte holds no
value, so no cell can equal what an unlisted byte reads as. -/
def Memory.wf (m : Memory) : Bool :=
  match m with
  | [] => true
  | (k, _) :: rest => k < Config.capBytes && Memory.above k rest && Memory.wf rest

/-- 10_state.md R28: word `i` of a buffer, the byte at the even index high. -/
def Memory.word (m : Memory) (i : Nat) : Option Half :=
  match Memory.read m (2 * i), Memory.read m (2 * i + 1) with
  | some h, some l => some (be16 h l)
  | _, _ => none

/-- The byte that leaves, or that the host reads, for `TXBUF[i]`: the byte held, or a free draw where the host wrote none
(70_reset_and_hazards.md R236, log entry 5). -/
def State.txByte (s : State) (i : Nat) : Byte := (Memory.read s.txbuf i).getD (Config.freeTxByte s.world.tick i)

/-- The byte the host reads for `RXBUF[i]`: the byte held, or a free draw where nothing was stored
(70_reset_and_hazards.md R237, log entry 5). -/
def State.rxByte (s : State) (i : Nat) : Byte := (Memory.read s.rxbuf i).getD (Config.freeRxByte s.world.tick i)

/-- 44_engine_operations.md R170: `TXBUF[0 .. n - 1]`. -/
def State.txRun (s : State) (n : Nat) : List Byte := (List.range n).map s.txByte

/-- 44_engine_operations.md R168, decision D13: `RXBUF[0 .. n-1] <- unspecified`, drawn afresh (log entry 6). -/
def State.spoilRx (n : Nat) (s : State) : State :=
  { s with rxbuf := Memory.writeRun s.rxbuf 0 ((List.range n).map (Config.freeRxByte s.world.tick)) }

/-! ### The bus -/

/-- 00_scope.md R10: the integer a read answer reports. -/
def ReadAnswer.count : ReadAnswer → Int
  | .delivered bs => bs.length
  | .failed k => -((k : Int) + 1)

/-- 00_scope.md R10: the bytes a read answer brings. -/
def ReadAnswer.bytes : ReadAnswer → List Byte
  | .delivered bs => bs
  | .failed _ => []

/-- 00_scope.md R15: what the device side answers to the next `BusWrite`: the listed answer, or else a free value. -/
def State.nextCount (s : State) : Int :=
  match s.world.writeAnswers with
  | r :: _ => r
  | [] => Config.freeCount s.world.tick

/-- 00_scope.md R15: what the device side answers to the next `BusRead`: the listed answer, or else a free value. -/
def State.nextRead (s : State) : ReadAnswer :=
  match s.world.readAnswers with
  | a :: _ => a
  | [] => Config.freeRead s.world.tick

/-- 00_scope.md R10, R16: `BusWrite(frame)` has returned: its event is on the trace. -/
def State.afterWrite (s : State) (frame : List Byte) : State :=
  { s with world := { s.world with
      writeAnswers := s.world.writeAnswers.tail
      trace := s.world.trace ++ [.wrote frame s.nextCount]
      tick := s.world.tick + 1 } }

/-- 00_scope.md R10, R16: `BusRead(n)` has returned: its event is on the trace. -/
def State.afterRead (s : State) (n : Nat) : State :=
  { s with world := { s.world with
      readAnswers := s.world.readAnswers.tail
      trace := s.world.trace ++ [.readBack n (ReadAnswer.count s.nextRead) (ReadAnswer.bytes s.nextRead)]
      tick := s.world.tick + 1 } }

/-- 00_scope.md R10: the next `BusWrite(frame)` succeeds: the count returned is the count asked, no less and no more
(decision D12). -/
def State.writeSucceeds (s : State) (frame : List Byte) : Bool := s.nextCount == (frame.length : Int)

/-- 00_scope.md R10: the next `BusRead(n)` succeeds. -/
def State.readSucceeds (s : State) (n : Nat) : Bool := ReadAnswer.count s.nextRead == (n : Int)

/-! ### Ending an operation -/

/-- The errors an operation can end with (60_exceptions.md R190, R198). -/
inductive OpError where
  | busError
  | notReady (booted busy : Bool)
  deriving DecidableEq, Repr

/-- 60_exceptions.md R190: the result kind of an error. -/
def OpError.kind : OpError → ResKind
  | .busError => .busError
  | .notReady _ _ => .notReady

/-- 60_exceptions.md R198: `RES_FLAGS <- booted * 2 + busy`, for `NOT_READY` only. -/
def OpError.flags (old : BitVec 2) : OpError → BitVec 2
  | .busError => old
  | .notReady booted busy => flagsOf booted busy

/-- 60_exceptions.md R198: the error entry. "It ends the step that calls it and the operation with it": where no operation
runs (a primitive called on its own) there is none to end, and the result registers stay those of the last request
(log entry 9). -/
def State.fail (e : OpError) (s : State) : State :=
  if s.phase = .idle then s
  else
    { s with
      resKind := OpError.kind e
      resFlags := OpError.flags s.resFlags e
      busy := false
      done := true
      phase := .idle }

/-- 44_engine_operations.md R175: the normal end. -/
def State.complete (s : State) : State :=
  { s with resKind := .ok, busy := false, done := true, phase := .idle }

/-! ### The wait -/

/-- 41_ready_synchronizer.md R134: entering a wait phase. -/
def State.enterWait (p : Phase) (s : State) : State :=
  { s with phase := p, poll := .sel, tries := s.build.retryBudget, sync := .polling }

/-- 10_state.md R37, 41_ready_synchronizer.md R134: `PHASE <- p`. -/
def State.enterPhase (p : Phase) (s : State) : State :=
  if Phase.isWait p then s.enterWait p else { s with phase := p }

/-- 40_status_probe.md R121: all four fields of `STAT` together, and `SV`. -/
def State.latchStat (st : DeviceStatus) (s : State) : State := { s with stat := st, sv := true }

/-- 41_ready_synchronizer.md R133, `leave_wait(s)`: the next phase, or for `WR_WAIT_B` the end of the operation with
`RES_STATUS <- s.code` (44_engine_operations.md R173). -/
def State.leaveWait (st : DeviceStatus) (s : State) : State :=
  if s.phase = .wrWaitB then State.complete { s with resStatus := st.code }
  else { s with phase := Phase.next s.phase }

/-- 41_ready_synchronizer.md R133: what a wait does with the status decoded in this very step. -/
def State.resolveWait (st : DeviceStatus) (s : State) : State :=
  if DeviceStatus.isReady st then State.leaveWait st { s with sync := .ready }
  else if s.tries = 0#8 then State.fail (.notReady st.booted st.busy) { s with sync := .timedOut }
  else { s with tries := s.tries - 1#8, poll := .sel }

/-- 40_status_probe.md R121, 41_ready_synchronizer.md R133: a status response has arrived. Outside a wait phase it is
latched and nothing more follows (log entry 10). -/
def State.receiveStatus (st : DeviceStatus) (s : State) : State :=
  if Phase.isWait s.phase then State.resolveWait st (s.latchStat st) else s.latchStat st

/-! ### The sequencer's frames -/

/-- 10_state.md R37: the sequencer goes on to the next phase where the frame just sent is the one of its own phase; a frame
sent outside its phases moves nothing (log entry 10). -/
def State.advanceFrom (own : List Phase) (s : State) : State :=
  if s.phase ∈ own then s.enterPhase (Phase.next s.phase) else s

/-- 44_engine_operations.md R164 to R172: one `BusWrite`; on success `onOk`, else `fail(BUS_ERROR)`. -/
def State.sendFrame (frame : List Byte) (onOk : State → State) (s : State) : State :=
  if s.writeSucceeds frame then onOk (s.afterWrite frame) else State.fail .busError (s.afterWrite frame)

/-- 41_ready_synchronizer.md R132: after the select write of a probe, in a wait phase. -/
def State.toRead (s : State) : State := if Phase.isWait s.phase then { s with poll := .read } else s

/-- 44_engine_operations.md R168: `RXBUF[i] <- b[i]`, `RES_LEN <- n`, `complete()`, in the data-read step; no other step
takes a data response (10_state.md R27, log entry 10). -/
def State.storeResponse (raw : List Byte) (s : State) : State :=
  if s.phase = .rdData then
    State.complete { s with
      rxbuf := Memory.writeRun s.rxbuf 0 raw
      resLen := BitVec.ofNat 16 raw.length }
  else s

/-! ### The primitives called on their own -/

/-- A primitive called on its own gives its result (log entry 8). -/
def State.giveResult (u : UnitOut) (s : State) : State := { s with world := { s.world with unitOut := u } }

/-- 40_status_probe.md R121: `PROBE`, both transactions: the status read, or `none` for `BUS_ERROR`. When the address write
fails the read is not issued. -/
def State.probe (s : State) : Option DeviceStatus × State :=
  if s.writeSucceeds statusSelFrame then
    let s1 := s.afterWrite statusSelFrame
    match s1.readSucceeds 2, ReadAnswer.bytes s1.nextRead with
    | true, [b0, b1] => (some (decodeStatusBytes b0 b1), (s1.afterRead 2).latchStat (decodeStatusBytes b0 b1))
    | _, _ => (none, s1.afterRead 2)
  else (none, s.afterWrite statusSelFrame)

/-- 40_status_probe.md R121: the state a `PROBE` called on its own leaves. -/
def State.probeOrFail (s : State) : State :=
  match s.probe with
  | (some _, t) => t
  | (none, t) => State.fail .busError t

/-- 10_state.md R34: where `POLL` stands after a probe that ended the wait: `P_SEL` if the select write failed, else
`P_READ`. -/
def State.pollAfter (s : State) : Poll := if s.writeSucceeds statusSelFrame then .read else .sel

/-- 41_ready_synchronizer.md R130: the loop of `WAIT_READY`, with `n` tries left. -/
def State.waitLoop (n : Nat) (s : State) : WaitResult × State :=
  match s.probe with
  | (none, s1) => (.busError, State.fail .busError { s1 with poll := s.pollAfter })
  | (some st, s1) =>
    if DeviceStatus.isReady st then (.ready, { s1 with poll := .read, sync := .ready })
    else
      match n with
      | 0 => (.timedOut st.booted st.busy, { s1 with poll := .read, sync := .timedOut })
      | k + 1 => State.waitLoop k { s1 with poll := .sel, tries := s1.tries - 1#8 }

/-- 41_ready_synchronizer.md R130: `SYNC <- POLLING`, `TRIES <- n`, then the loop. -/
def State.waitReady (n : Byte) (s : State) : WaitResult × State :=
  State.waitLoop n.toNat { s with sync := .polling, tries := n, poll := .sel }

/-! ### The start step -/

/-- 44_engine_operations.md R161: the start checks on a request's fields, in this order. The first check of the rule, on the
reserved bits, is the decoder's rejection of the word (`rejectBytes`). -/
def checkRequest (op : BitVec 2) (module : Byte) (wc : Half) : ResKind :=
  if 2 ≤ op.toNat then .illegalRequest
  else if ModuleId.ofByte module = none then .illegalRequest
  else if Config.capBytes < byteLen wc then .capacityError
  else .ok

/-- 44_engine_operations.md R160: what the start step does first, with the request taken off the port (10_state.md
R21). -/
def State.clearResults (s : State) : State :=
  { s with hreq := none, resStatus := 0#8, resLen := 0#16, resFlags := 0#2 }

/-- 44_engine_operations.md R160: a refused request. -/
def State.refuseRequest (k : ResKind) (s : State) : State :=
  { s.clearResults with resKind := k, done := true }

/-- 44_engine_operations.md R160: an accepted request is latched and its first wait entered. -/
def State.acceptRequest (op : BitVec 2) (module cmdid : Byte) (wc : Half) (s : State) : State :=
  State.enterWait (if op = 0#2 then .rdWaitA else .wrWaitA)
    { s.clearResults with
      rOp := op, rModule := module, rCmdid := cmdid, rWc := wc
      resKind := .ok, done := false, busy := true }

/-- 44_engine_operations.md R160: the start step; it issues no bus transaction. It runs when `PHASE = IDLE`; until then the
write is held and stays on the port (10_state.md R46, log entry 7). -/
def State.startStep (op : BitVec 2) (module cmdid : Byte) (wc : Half) (s : State) : State :=
  if s.phase = .idle then
    match checkRequest op module wc with
    | .ok => s.acceptRequest op module cmdid wc
    | k => s.refuseRequest k
  else { s with hreq := some (requestWord op module cmdid wc) }

end Sys2Proof.Machine
end

