-- ==== Sys2Proof/Machine/Frames.lean ====
section
/-! DEFINITION. The meanings of the ten bus frames: the frame goes on the bus as one `BusWrite`; when the whole of it was
taken the sequencer goes on from the frame's own phase, and any other count is `BUS_ERROR` (60_exceptions.md R191). -/

namespace Sys2Proof.Machine

/-- `STATUS_SEL` (40_status_probe.md R121, 41_ready_synchronizer.md R132). -/
def execStatusSel (s : State) : Host.Outcome State Fault Refusal :=
  .next (s.sendFrame statusSelFrame State.toRead)

/-- `DATA_SEL` (44_engine_operations.md R167). -/
def execDataSel (s : State) : Host.Outcome State Fault Refusal :=
  .next (s.sendFrame dataSelFrame (State.advanceFrom [.rdSel]))

/-- `LEN_RD` (44_engine_operations.md R164). -/
def execLenRd (len : Half) (s : State) : Host.Outcome State Fault Refusal :=
  .next (s.sendFrame (lengthFrame len) (State.advanceFrom [.rdLen]))

/-- `LEN_WR` (44_engine_operations.md R171); its high byte is 0x00 under `LOW_BYTE` (30_encoding.md R105). -/
def execLenWr (len : Half) (s : State) : Host.Outcome State Fault Refusal :=
  if Instr.wellFormed s.build.writeLenMode (.lenWr len) then
    .next (s.sendFrame (lengthFrame len) (State.advanceFrom [.wrLen]))
  else .refused .illFormedOperand

/-- A command frame of a module (44_engine_operations.md R165, R172). -/
def State.sendCommand (m : ModuleId) (k : Byte) (s : State) : State :=
  s.sendFrame (commandFrame (moduleByte m) k) (State.advanceFrom [.rdCmd, .wrCmd])

/-- `CMD.AGC` (42_command_encoder.md R140). -/
def execCmdAgc (k : Byte) (s : State) : Host.Outcome State Fault Refusal := .next (s.sendCommand .agc k)

/-- `CMD.SYS` (42_command_encoder.md R140). -/
def execCmdSys (k : Byte) (s : State) : Host.Outcome State Fault Refusal := .next (s.sendCommand .sys k)

/-- `CMD.VID` (42_command_encoder.md R140). -/
def execCmdVid (k : Byte) (s : State) : Host.Outcome State Fault Refusal := .next (s.sendCommand .vid k)

/-- `CMD.OEM` (42_command_encoder.md R140). -/
def execCmdOem (k : Byte) (s : State) : Host.Outcome State Fault Refusal := .next (s.sendCommand .oem k)

/-- `CMD.RAD` (42_command_encoder.md R140); the same bytes as `CMD.OEM` (30_encoding.md R104 a). -/
def execCmdRad (k : Byte) (s : State) : Host.Outcome State Fault Refusal := .next (s.sendCommand .rad k)

/-- `DATA_WR` (43_payload_transfer.md R150, 44_engine_operations.md R170). -/
def execDataWr (payload : List Byte) (s : State) : Host.Outcome State Fault Refusal :=
  if payloadOk payload then
    .next (s.sendFrame (payloadFrame payload) (State.advanceFrom [.wrData]))
  else .refused .illFormedOperand

end Sys2Proof.Machine
end

