-- ==== Sys2Proof/Machine/Primitives.lean ====
section
/-! DEFINITION. The meanings of the nine primitives called on their own; the sequencer uses the same operations in its own
steps. A pure function changes no register: it gives its result (log entry 8). -/

namespace Sys2Proof.Machine

/-- `PROBE` (40_status_probe.md R121): two transactions, each its own event (decision D22); `fail(BUS_ERROR)` when either
fails. -/
def execProbe (s : State) : Host.Outcome State Fault Refusal :=
  .next ((s.probeOrFail).giveResult (.probed s.probe.1))

/-- `WAIT_READY` (41_ready_synchronizer.md R130). -/
def execWaitReady (maxTries : Byte) (s : State) : Host.Outcome State Fault Refusal :=
  .next ((s.waitReady maxTries).2.giveResult (.waited (s.waitReady maxTries).1))

/-- `SWAP16` (43_payload_transfer.md R154). -/
def execSwap16 (v : Half) (s : State) : Host.Outcome State Fault Refusal :=
  .next (s.giveResult (.half (swapBytes v)))

/-- `DECODE_STATUS` (40_status_probe.md R120). -/
def execDecodeStatus (b0 b1 : Byte) (s : State) : Host.Outcome State Fault Refusal :=
  .next (s.giveResult (.status (decodeStatusBytes b0 b1)))

/-- `ENC_CMD` (42_command_encoder.md R140). -/
def execEncCmd (m : ModuleId) (cid : Byte) (op : Opcode) (s : State) : Host.Outcome State Fault Refusal :=
  .next (s.giveResult (.bytes (encodeCommand m cid op)))

/-- `ENC_LEN_RD` (42_command_encoder.md R141). -/
def execEncLenRd (wc : Half) (s : State) : Host.Outcome State Fault Refusal :=
  .next (s.giveResult (.bytes (encodeLenRd wc)))

/-- `ENC_LEN_WR` (42_command_encoder.md R142), in the form the build's `WRITE_LEN_MODE` selects. -/
def execEncLenWr (wc : Half) (s : State) : Host.Outcome State Fault Refusal :=
  .next (s.giveResult (.bytes (encodeLenWr s.build.writeLenMode wc)))

/-- `PACK_WRITE` (43_payload_transfer.md R150), on at least `2*wc` bytes with `wc <= 512`. -/
def execPackWrite (data : List Byte) (wc : Half) (s : State) : Host.Outcome State Fault Refusal :=
  if Instr.wellFormed s.build.writeLenMode (.packWrite data wc) then
    .next (s.giveResult (.bytes (packPayload data wc)))
  else .refused .illFormedOperand

/-- `UNPACK_READ` (43_payload_transfer.md R151), on exactly `2*wc` bytes with `wc <= 512`. -/
def execUnpackRead (raw : List Byte) (wc : Half) (s : State) : Host.Outcome State Fault Refusal :=
  if Instr.wellFormed s.build.writeLenMode (.unpackRead raw wc) then
    .next (s.giveResult (.bytes (unpackPayload raw wc)))
  else .refused .illFormedOperand

end Sys2Proof.Machine
end

