-- ==== Sys2Proof/Machine/Requests.lean ====
section
/-! DEFINITION. The meanings of the four host requests. The operation a request starts runs on in the sequencer's own steps,
one bus transaction each (00_scope.md R14, decision D22). -/

namespace Sys2Proof.Machine

/-- `READ_DATA` (44_engine_operations.md R160, R177): the start step with `OP = 0`. -/
def execReadData (module cmdid : Byte) (wc : Half) (s : State) : Host.Outcome State Fault Refusal :=
  .next (s.startStep 0#2 module cmdid wc)

/-- `WRITE_DATA` (44_engine_operations.md R160, R179): the start step with `OP = 1`. -/
def execWriteData (module cmdid : Byte) (wc : Half) (s : State) : Host.Outcome State Fault Refusal :=
  .next (s.startStep 1#2 module cmdid wc)

/-- A request with `OP = 2` (44_engine_operations.md R176): the start step, which refuses it. -/
def execHreqRun (module cmdid : Byte) (wc : Half) (s : State) : Host.Outcome State Fault Refusal :=
  .next (s.startStep 2#2 module cmdid wc)

/-- A request with `OP = 3` (44_engine_operations.md R161): the start step, which refuses it. -/
def execHreqOp3 (module cmdid : Byte) (wc : Half) (s : State) : Host.Outcome State Fault Refusal :=
  .next (s.startStep 3#2 module cmdid wc)

end Sys2Proof.Machine
end

