-- ==== Sys2Proof/Machine/Responses.lean ====
section
/-! DEFINITION. The meanings of the two bus responses, taken off the bus by the read that asked for them. -/

namespace Sys2Proof.Machine

/-- `STATUS_RSP` (40_status_probe.md R120, R121; 41_ready_synchronizer.md R133). -/
def execStatusRsp (b0 b1 : Byte) (s : State) : Host.Outcome State Fault Refusal :=
  .next (s.receiveStatus (decodeStatusBytes b0 b1))

/-- `DATA_RSP` (43_payload_transfer.md R151, 44_engine_operations.md R168). A response of more than 1024 bytes would need a
buffer index that does not exist. -/
def execDataRsp (payload : List Byte) (s : State) : Host.Outcome State Fault Refusal :=
  if Config.capBytes < payload.length then .fault .bufferIndex
  else if payloadOk payload then .next (s.storeResponse payload)
  else .refused .illFormedOperand

end Sys2Proof.Machine
end

