-- ==== Sys2Proof/Machine/Dispatch.lean ====
section
/-! DEFINITION. One arm per constructor of Instr, each one call of its meaning. -/

namespace Sys2Proof.Machine

def exec (i : Instr) (s : State) : Host.Outcome State Fault Refusal :=
  match i with
  | .readData m c w => Sys2Proof.Machine.execReadData m c w s
  | .writeData m c w => Sys2Proof.Machine.execWriteData m c w s
  | .hreqRun m c w => Sys2Proof.Machine.execHreqRun m c w s
  | .hreqOp3 m c w => Sys2Proof.Machine.execHreqOp3 m c w s
  | .statusSel => Sys2Proof.Machine.execStatusSel s
  | .dataSel => Sys2Proof.Machine.execDataSel s
  | .lenRd len => Sys2Proof.Machine.execLenRd len s
  | .lenWr len => Sys2Proof.Machine.execLenWr len s
  | .cmdAgc k => Sys2Proof.Machine.execCmdAgc k s
  | .cmdSys k => Sys2Proof.Machine.execCmdSys k s
  | .cmdVid k => Sys2Proof.Machine.execCmdVid k s
  | .cmdOem k => Sys2Proof.Machine.execCmdOem k s
  | .cmdRad k => Sys2Proof.Machine.execCmdRad k s
  | .dataWr p => Sys2Proof.Machine.execDataWr p s
  | .statusRsp x y => Sys2Proof.Machine.execStatusRsp x y s
  | .dataRsp p => Sys2Proof.Machine.execDataRsp p s
  | .probe => Sys2Proof.Machine.execProbe s
  | .waitReady n => Sys2Proof.Machine.execWaitReady n s
  | .swap16 v => Sys2Proof.Machine.execSwap16 v s
  | .decodeStatus x y => Sys2Proof.Machine.execDecodeStatus x y s
  | .encCmd m c op => Sys2Proof.Machine.execEncCmd m c op s
  | .encLenRd w => Sys2Proof.Machine.execEncLenRd w s
  | .encLenWr w => Sys2Proof.Machine.execEncLenWr w s
  | .packWrite d w => Sys2Proof.Machine.execPackWrite d w s
  | .unpackRead r w => Sys2Proof.Machine.execUnpackRead r w s

end Sys2Proof.Machine
end

