-- ==== Sys2Proof/Machine/HostPort.lean ====
section
/-! DEFINITION. The host's accesses and the platform's reset (10_state.md R21, R26, R27, R38 to R46, R56). -/

namespace Sys2Proof.Machine

/-- The rest of the host's accesses. -/
def State.withHost (rest : List HostAct) (s : State) : State := { s with world := { s.world with host := rest } }

/-- A host read returned a value. -/
def State.reply (r : HostReply) (s : State) : State :=
  { s with world := { s.world with hostLog := s.world.hostLog ++ [r] } }

/-- A free draw was made: the next one is another (log entry 5). -/
def State.ticked (s : State) : State := { s with world := { s.world with tick := s.world.tick + 1 } }

/-- 10_state.md R46: a read of `HSTAT` is never held, and a reset input is no host access (70_reset_and_hazards.md R221);
letting the engine step is none either. Every other access is held while `HSTAT.BUSY = 1`. -/
def HostAct.neverHeld : HostAct → Bool
  | .pass => true
  | .reset => true
  | .readHstat => true
  | .writeHreq _ => false
  | .writeTx _ _ => false
  | .readTx _ => false
  | .readRx _ => false
  | .readKind => false
  | .readStatus => false
  | .readLen => false
  | .readFlags => false
  | .readStat => false
  | .readSync => false
  | .swap16 _ => false

/-- 10_state.md R46: the hold is lifted: no operation runs, and no request stands on the port (log entry 7). -/
def State.accepting (s : State) : Bool := !s.busy && s.hreq.isNone

/-- The accesses still to come after a reset: a write of `HREQ` that stands on the port was not taken, so it is a held
access, and the reset releases it (70_reset_and_hazards.md R221): it is the host's next access again (log entry 16). -/
def State.released (s : State) : List HostAct :=
  match s.hreq with
  | some q => .writeHreq q :: s.world.host
  | none => s.world.host

/-- The effect of one access. A write of `HREQ` puts the word on the port; the engine's step of the same moment takes it
(`hostTurn`). A read changes nothing of the block. `reset` puts every register at its value of 10_state.md R56, releases the
accesses that are held, and leaves the device side and the trace as they are (70_reset_and_hazards.md R221, log entry 16). -/
def State.serve (a : HostAct) (s : State) : State :=
  match a with
  | .pass => s
  | .reset => State.afterReset s.build (s.withHost s.released).ticked.world
  | .writeHreq q => { s with hreq := some q }
  | .writeTx i b => { s with txbuf := Memory.write s.txbuf i.val b }
  | .readTx i => (s.reply (.byte (s.txByte i.val))).ticked
  | .readRx i => (s.reply (.byte (s.rxByte i.val))).ticked
  | .readHstat => s.reply (.hstat s.hstat)
  | .readKind => s.reply (.kind (ResKind.code s.resKind))
  | .readStatus => s.reply (.status s.resStatus)
  | .readLen => s.reply (.len s.resLen)
  | .readFlags => s.reply (.flags s.resFlags)
  | .readStat => s.reply (.stat s.stat)
  | .readSync => s.reply (.sync (Sync.code s.sync))
  | .swap16 v => s.reply (.half (swapBytes v))

/-- After this access the engine steps in the same step: the host let it, or the write of `HREQ` is the start step's
(44_engine_operations.md R160). -/
def HostAct.engineFollows : HostAct → Bool
  | .pass => true
  | .writeHreq _ => true
  | .reset => false
  | .writeTx _ _ => false
  | .readTx _ => false
  | .readRx _ => false
  | .readHstat => false
  | .readKind => false
  | .readStatus => false
  | .readLen => false
  | .readFlags => false
  | .readStat => false
  | .readSync => false
  | .swap16 _ => false

/-- What comes while the access `a` is held (10_state.md R46): the reset input and a read of `HSTAT`, which are never held,
take effect and leave `a` the first access to come; any other access waits behind `a`, and the engine steps. -/
def State.whileHeld (a : HostAct) (rest : List HostAct) (s : State) : State × Bool :=
  match rest with
  | [] => (s, true)
  | e :: more =>
    if HostAct.neverHeld e then ((s.withHost (a :: more)).serve e, HostAct.engineFollows e) else (s, true)

/-- Whose turn it is (log entry 1): the state after the host's access and whether the engine steps too. -/
def State.hostTurn (s : State) : State × Bool :=
  match s.world.host with
  | [] => (s, true)
  | a :: rest =>
    if HostAct.neverHeld a || s.accepting then ((s.withHost rest).serve a, HostAct.engineFollows a)
    else s.whileHeld a rest

end Sys2Proof.Machine
end

