-- ==== Sys2Proof/Decode.lean ====
section
/-! DEFINITION. The decoder, total on any bytes and rejecting by name; the encoder; the table's numbering of bits.

The formats alias (30_encoding.md R102, R104): bytes alone do not say which row they are, their position in the sequence
does. So `decode` takes the SLOT the bytes stand in (log entry 11). -/

namespace Sys2Proof

open Machine

/-- The position in which bytes are read: on the request port, as the frame of a given sequencer step, as the response
to a given select, or as the operands of a primitive. A command frame's slot carries the module the sequencer holds,
since `CMD.OEM` and `CMD.RAD` are the same bytes (30_encoding.md R104 a). -/
inductive Slot where
  | request
  | statusSel
  | dataSel
  | lenRd
  | lenWr (mode : WriteLenMode)
  | command (m : ModuleId)
  | dataWr
  | statusRsp
  | dataRsp
  | probe
  | swap16
  | decodeStatus
  | encCmd
  | encLenRd
  | encLenWr (mode : WriteLenMode)
  | packWrite
  | unpackRead
  deriving DecidableEq, Repr

/-- Why bytes are no instruction of a slot. -/
inductive DecodeError where
  /-- The count of bytes is not the format's. -/
  | wrongLength
  /-- Byte 0 of a frame is not the reserved 0x00 (30_encoding.md R105). -/
  | reservedByte
  /-- Byte 1 of a frame is not the register address of the slot (30_encoding.md R102). -/
  | wrongAddress
  /-- `HREQ[39:34]` is not 0 (30_encoding.md R107). -/
  | reservedRequestBits
  /-- The module byte is not the one of the slot's module (30_encoding.md R98). -/
  | wrongModuleByte
  /-- The high length byte of a write-form length frame is not 0 under `LOW_BYTE` (30_encoding.md R105). -/
  | reservedLengthByte
  /-- A payload that is no whole number of words, or longer than the buffers (20_memory.md R69, R70). -/
  | badPayload
  deriving DecidableEq, Repr

/-- What the decoder answers. -/
inductive Decoded where
  | ok (i : Instr)
  | rejected (e : DecodeError)
  deriving DecidableEq, Repr

/-- 30_encoding.md R97, R103: `000000pp mmmmmmmm cccccccc wwwwwwww wwwwwwww`. -/
def decodeRequest : List Byte → Decoded
  | [b4, b3, b2, b1, b0] =>
    if b4.toNat / 4 ≠ 0 then .rejected .reservedRequestBits
    else if b4.toNat = 0 then .ok (.readData b3 b2 (be16 b1 b0))
    else if b4.toNat = 1 then .ok (.writeData b3 b2 (be16 b1 b0))
    else if b4.toNat = 2 then .ok (.hreqRun b3 b2 (be16 b1 b0))
    else .ok (.hreqOp3 b3 b2 (be16 b1 b0))
  | _ => .rejected .wrongLength

/-- 20_memory.md R63: the address bytes `[0x00, a]` that begin every frame, then `k` of what follows. -/
def decodeAddressed (a : Byte) (bs : List Byte) (k : List Byte → Decoded) : Decoded :=
  match bs with
  | r :: b :: rest =>
    if r ≠ 0x00#8 then .rejected .reservedByte
    else if b ≠ a then .rejected .wrongAddress
    else k rest
  | _ => .rejected .wrongLength

/-- 30_encoding.md R91: nothing follows the address of a select frame. -/
def decodeNothing (i : Instr) : List Byte → Decoded
  | [] => .ok i
  | _ => .rejected .wrongLength

/-- 40_status_probe.md R121: what the engine sends of a `PROBE` is the select frame alone; the two bytes the table shows
after it are the device's answer and no operand (log entry 22). -/
def decodeProbe : List Byte → Decoded
  | [] => .ok .probe
  | [_, _] => .ok .probe
  | _ => .rejected .wrongLength

/-- Two bytes, then `k` of them. -/
def decodeTwo (k : Byte → Byte → Decoded) : List Byte → Decoded
  | [x, y] => k x y
  | _ => .rejected .wrongLength

/-- 30_encoding.md R92: the length field of the write form. -/
def decodeWriteLen (mode : WriteLenMode) (k : Half → Instr) (h l : Byte) : Decoded :=
  if mode = .lowByte ∧ h ≠ 0x00#8 then .rejected .reservedLengthByte else .ok (k (be16 h l))

/-- 30_encoding.md R93: the command row of a module. -/
def commandInstr (m : ModuleId) (k : Byte) : Instr :=
  match m with
  | .agc => .cmdAgc k
  | .sys => .cmdSys k
  | .vid => .cmdVid k
  | .oem => .cmdOem k
  | .rad => .cmdRad k

/-- The module an `ENC_CMD` frame is read as: OEM for the module byte that OEM and RAD share (30_encoding.md R104 a). -/
def moduleOfByte (mb : Byte) : Option ModuleId :=
  if mb = moduleByte .agc then some .agc
  else if mb = moduleByte .sys then some .sys
  else if mb = moduleByte .vid then some .vid
  else if mb = moduleByte .oem then some .oem
  else none

/-- 30_encoding.md R104 b: the opcode byte is a sum and does not split, so the frame of `ENC_CMD` is read as the one
preimage with `GET`, whose sum is the command id itself (log entry 27). -/
def decodeEncCmd (mb k : Byte) : Decoded :=
  match moduleOfByte mb with
  | some m => .ok (.encCmd m k .get)
  | none => .rejected .wrongModuleByte

/-- A payload: a whole number of words that fits the buffers (30_encoding.md R94, R96). -/
def decodePayload (k : List Byte → Instr) (p : List Byte) : Decoded :=
  if payloadOk p then .ok (k p) else .rejected .badPayload

/-- The word count of a payload. -/
def wordCount (p : List Byte) : Half := BitVec.ofNat 16 (p.length / 2)

/-- The instruction that the bytes standing in a slot are, or why they are none. -/
def decode (slot : Slot) (bs : List Byte) : Decoded :=
  match slot with
  | .request => decodeRequest bs
  | .statusSel => decodeAddressed Config.regStatus bs (decodeNothing .statusSel)
  | .dataSel => decodeAddressed Config.regData0 bs (decodeNothing .dataSel)
  | .lenRd => decodeAddressed Config.regDataLength bs (decodeTwo fun h l => .ok (.lenRd (be16 h l)))
  | .lenWr mode => decodeAddressed Config.regDataLength bs (decodeTwo (decodeWriteLen mode .lenWr))
  | .command m => decodeAddressed Config.regCommand bs (decodeTwo fun mb k =>
      if mb = moduleByte m then .ok (commandInstr m k) else .rejected .wrongModuleByte)
  | .dataWr => decodeAddressed Config.regData0 bs (decodePayload .dataWr)
  | .statusRsp => decodeTwo (fun b0 b1 => .ok (.statusRsp b0 b1)) bs
  | .dataRsp => decodePayload .dataRsp bs
  | .probe => decodeAddressed Config.regStatus bs decodeProbe
  | .swap16 => decodeTwo (fun h l => .ok (.swap16 (be16 h l))) bs
  | .decodeStatus => decodeTwo (fun b0 b1 => .ok (.decodeStatus b0 b1)) bs
  | .encCmd => decodeAddressed Config.regCommand bs (decodeTwo decodeEncCmd)
  | .encLenRd => decodeAddressed Config.regDataLength bs (decodeTwo fun h l => .ok (.encLenRd (be16 h l)))
  | .encLenWr mode => decodeAddressed Config.regDataLength bs (decodeTwo (decodeWriteLen mode .encLenWr))
  | .packWrite => decodeAddressed Config.regData0 bs (decodePayload fun p => .packWrite p (wordCount p))
  | .unpackRead => decodePayload (fun p => .unpackRead p (wordCount p)) bs

/-- The bytes of a well-formed instruction (30_encoding.md R90): a request word most significant byte first, a frame or
a response in bus order; for a primitive, what its row of the table shows: its operand bytes or the frame it makes, in a
build with the given `WRITE_LEN_MODE`. `WAIT_READY` has no encoding of its own. -/
def encode (mode : WriteLenMode) : Instr → List Byte
  | .readData m c w => requestBytes (requestWord 0#2 m c w)
  | .writeData m c w => requestBytes (requestWord 1#2 m c w)
  | .hreqRun m c w => requestBytes (requestWord 2#2 m c w)
  | .hreqOp3 m c w => requestBytes (requestWord 3#2 m c w)
  | .statusSel => statusSelFrame
  | .dataSel => dataSelFrame
  | .lenRd len => lengthFrame len
  | .lenWr len => lengthFrame len
  | .cmdAgc k => commandFrame (moduleByte .agc) k
  | .cmdSys k => commandFrame (moduleByte .sys) k
  | .cmdVid k => commandFrame (moduleByte .vid) k
  | .cmdOem k => commandFrame (moduleByte .oem) k
  | .cmdRad k => commandFrame (moduleByte .rad) k
  | .dataWr p => payloadFrame p
  | .statusRsp b0 b1 => [b0, b1]
  | .dataRsp p => p
  | .probe => statusSelFrame
  | .waitReady _ => []
  | .swap16 v => [hi8 v, lo8 v]
  | .decodeStatus b0 b1 => [b0, b1]
  | .encCmd m cid op => encodeCommand m cid op
  | .encLenRd wc => encodeLenRd wc
  | .encLenWr wc => encodeLenWr mode wc
  | .packWrite d wc => packPayload d wc
  | .unpackRead r _ => r

/-- The slot an instruction's bytes are read in; `none` for `WAIT_READY`, which has no encoding. -/
def slotOf (mode : WriteLenMode) : Instr → Option Slot
  | .readData _ _ _ => some .request
  | .writeData _ _ _ => some .request
  | .hreqRun _ _ _ => some .request
  | .hreqOp3 _ _ _ => some .request
  | .statusSel => some .statusSel
  | .dataSel => some .dataSel
  | .lenRd _ => some .lenRd
  | .lenWr _ => some (.lenWr mode)
  | .cmdAgc _ => some (.command .agc)
  | .cmdSys _ => some (.command .sys)
  | .cmdVid _ => some (.command .vid)
  | .cmdOem _ => some (.command .oem)
  | .cmdRad _ => some (.command .rad)
  | .dataWr _ => some .dataWr
  | .statusRsp _ _ => some .statusRsp
  | .dataRsp _ => some .dataRsp
  | .probe => some .probe
  | .waitReady _ => none
  | .swap16 _ => some .swap16
  | .decodeStatus _ _ => some .decodeStatus
  | .encCmd _ _ _ => some .encCmd
  | .encLenRd _ => some .encLenRd
  | .encLenWr _ => some (.encLenWr mode)
  | .packWrite _ _ => some .packWrite
  | .unpackRead _ _ => some .unpackRead

/-- The table numbers a row as ONE number, bit 0 its least significant bit, and 30_encoding.md draws byte 0, the first
on the bus, leftmost: so the first byte is the most significant one (log entry 12). -/
def tableBytes (nbits w : Nat) : List Byte :=
  (List.range (nbits / 8)).map fun i => BitVec.ofNat 8 (w >>> (8 * (nbits / 8 - 1 - i)))

/-- The slots tried on bytes with no position, the more specific pattern first (log entry 11). The rows that are never
found so are those whose bytes are another row's: the primitives but `PROBE`, and `CMD.RAD`. -/
def tableSlots : List Slot :=
  [.request, .statusSel, .dataSel, .probe, .command .agc, .command .sys, .command .vid, .command .oem,
   .lenWr .lowByte, .lenRd, .dataWr, .statusRsp, .dataRsp]

/-- The instruction the first slot that accepts the bytes gives. -/
def decodeFirst (bs : List Byte) : List Slot → Option Instr
  | [] => none
  | slot :: rest =>
    match decode slot bs with
    | .ok i => some i
    | .rejected _ => decodeFirst bs rest

/-- The instruction the decoder reads from a word of `nbits` bits numbered as spec/opcode_table.json numbers them. -/
def decodeTableWord (nbits w : Nat) : Option Instr := decodeFirst (tableBytes nbits w) tableSlots

end Sys2Proof
end

