-- ==== Sys2Proof/Machine/Place.lean ====
section
/-! DEFINITION. Placing an instruction so that the next step runs it (log entry 13). -/

namespace Sys2Proof.Machine

/-- No host access comes before the engine's step. -/
def State.quiet (s : State) : State := { s with world := { s.world with host := [] } }

/-- The engine idle with a request on the port. -/
def State.withRequest (q : ReqWord) (s : State) : State :=
  { s.quiet with phase := .idle, busy := false, hreq := some q }

/-- The engine in a phase of a running operation. -/
def State.inPhase (p : Phase) (s : State) : State := { s.quiet with phase := p, busy := true, done := false }

/-- In a command phase, with the module and the command id that make the frame with opcode byte `k` (`GET` adds 0). -/
def State.inCommand (m : ModuleId) (k : Byte) (s : State) : State :=
  { s.inPhase .rdCmd with rModule := ModuleId.code m, rCmdid := k }

/-- The next bus read brings these bytes. -/
def State.withResponse (bs : List Byte) (s : State) : State :=
  { s with world := { s.world with readAnswers := .delivered bs :: s.world.readAnswers } }

/-- The engine idle with a primitive called on its own. -/
def State.withCall (i : Instr) (s : State) : State :=
  let t := s.quiet
  { t with phase := .idle, busy := false, hreq := none, world := { t.world with call := some i } }

/-- The instruction placed; `bs` are the bytes it was decoded from, of which a `PROBE`'s last two are the device's answer
(log entry 22). -/
def placeInstr (i : Instr) (bs : List Byte) (s : State) : State :=
  match i with
  | .readData m c w => s.withRequest (requestWord 0#2 m c w)
  | .writeData m c w => s.withRequest (requestWord 1#2 m c w)
  | .hreqRun m c w => s.withRequest (requestWord 2#2 m c w)
  | .hreqOp3 m c w => s.withRequest (requestWord 3#2 m c w)
  | .statusSel => { s.inPhase .rdWaitA with poll := .sel }
  | .dataSel => s.inPhase .rdSel
  | .lenRd len => { s.inPhase .rdLen with rWc := len }
  | .lenWr len => { s.inPhase .wrLen with rWc := len }
  | .cmdAgc k => s.inCommand .agc k
  | .cmdSys k => s.inCommand .sys k
  | .cmdVid k => s.inCommand .vid k
  | .cmdOem k => s.inCommand .oem k
  | .cmdRad k => s.inCommand .rad k
  | .dataWr p => { s.inPhase .wrData with rWc := wordCount p, txbuf := Memory.writeRun s.txbuf 0 p }
  | .statusRsp x y => { (s.inPhase .rdWaitA).withResponse [x, y] with poll := .read }
  | .dataRsp p => { (s.inPhase .rdData).withResponse p with rWc := wordCount p }
  | .probe => (s.withCall .probe).withResponse (bs.drop 2)
  | .waitReady n => s.withCall (.waitReady n)
  | .swap16 v => s.withCall (.swap16 v)
  | .decodeStatus x y => s.withCall (.decodeStatus x y)
  | .encCmd m c op => s.withCall (.encCmd m c op)
  | .encLenRd w => s.withCall (.encLenRd w)
  | .encLenWr w => s.withCall (.encLenWr w)
  | .packWrite d w => s.withCall (.packWrite d w)
  | .unpackRead r w => s.withCall (.unpackRead r w)

/-- The word placed: what its decoding needs; a request the decoder rejects stands on the port as it is, for the start step
to refuse. -/
def placeWord (nbits w : Nat) (s : State) : State :=
  match decodeTableWord nbits w with
  | some i => placeInstr i (tableBytes nbits w) s
  | none => s.withRequest (BitVec.ofNat 40 w)

end Sys2Proof.Machine
end

