-- ==== Sys2Proof/Machine/Sequencer.lean ====
section
/-! DEFINITION. Fetching: what the engine's next step runs. While `PHASE = IDLE` it is the request on the port (or a
primitive called on its own); in an operation it is the frame the sequencer builds for its phase, or the response the bus
read of its phase brings (10_state.md R33). -/

namespace Sys2Proof.Machine

/-- What a fetch gives. -/
inductive Fetched where
  /-- the fetch was the whole step: nothing to do, or a bus read that failed -/
  | finished (s : State)
  /-- bytes in their slot, and the state in which they run -/
  | bytes (slot : Slot) (bs : List Byte) (s : State)
  /-- a primitive called with its operands, and the state in which it runs -/
  | called (i : Instr) (s : State)
  | stopped (f : Fault)
  deriving DecidableEq, Repr

/-- While `PHASE = IDLE` (10_state.md R32; 70_reset_and_hazards.md R220): the request on the port, taken off it (R21); or
a primitive called on its own (log entry 8); or nothing, and the engine waits. -/
def State.fetchIdle (s : State) : Fetched :=
  match s.hreq, s.world.call with
  | some q, _ => .bytes .request (requestBytes q) { s with hreq := none }
  | none, some i => .called i { s with world := { s.world with call := none } }
  | none, none => .finished s

/-- A wait phase (41_ready_synchronizer.md R132, R133): the select frame, or the two bytes of the status read. A read that
fails ends the operation, and the status is not decoded (60_exceptions.md R197). -/
def State.fetchWait (s : State) : Fetched :=
  match s.poll with
  | .sel => .bytes .statusSel statusSelFrame s
  | .read =>
    if s.readSucceeds 2 then .bytes .statusRsp (ReadAnswer.bytes s.nextRead) (s.afterRead 2)
    else .finished (State.fail .busError (s.afterRead 2))

/-- `RD_CMD`, `WR_CMD` (44_engine_operations.md R165, R172): the command frame of the latched request. -/
def State.fetchCommand (op : Opcode) (s : State) : Fetched :=
  match ModuleId.ofByte s.rModule with
  | some m => .bytes (.command m) (encodeCommand m s.rCmdid op) s
  | none => .stopped .moduleUndefined

/-- `RD_DATA` (44_engine_operations.md R168): the bytes of the data read; after a failed one the buffer's first
`2 * R_WC` bytes are unspecified. -/
def State.fetchData (s : State) : Fetched :=
  if Config.capBytes < byteLen s.rWc then .stopped .bufferIndex
  else if s.readSucceeds (byteLen s.rWc) then
    .bytes .dataRsp (unpackPayload (ReadAnswer.bytes s.nextRead) s.rWc) (s.afterRead (byteLen s.rWc))
  else .finished (State.fail .busError (State.spoilRx (byteLen s.rWc) (s.afterRead (byteLen s.rWc))))

/-- `WR_DATA` (44_engine_operations.md R170): the payload frame made of `TXBUF[0 .. 2*R_WC - 1]`. -/
def State.fetchPayload (s : State) : Fetched :=
  if Config.capBytes < byteLen s.rWc then .stopped .bufferIndex
  else .bytes .dataWr (packPayload (s.txRun (byteLen s.rWc)) s.rWc) s

/-- What the engine's next step runs, by the phase (10_state.md R33). -/
def State.fetch (s : State) : Fetched :=
  match s.phase with
  | .idle => s.fetchIdle
  | .rdWaitA => s.fetchWait
  | .rdLen => .bytes .lenRd (encodeLenRd s.rWc) s
  | .rdCmd => s.fetchCommand .get
  | .rdWaitB => s.fetchWait
  | .rdSel => .bytes .dataSel dataSelFrame s
  | .rdData => s.fetchData
  | .wrWaitA => s.fetchWait
  | .wrData => s.fetchPayload
  | .wrLen => .bytes (.lenWr s.build.writeLenMode) (encodeLenWr s.build.writeLenMode s.rWc) s
  | .wrCmd => s.fetchCommand .set
  | .wrWaitB => s.fetchWait

/-- What a step does with bytes the decoder rejects: a request with reserved bits set is refused by the start step
(44_engine_operations.md R161, decision D30); nothing else is ever rejected. -/
def rejectBytes (e : DecodeError) (s : State) : Host.Outcome State Fault Refusal :=
  match e with
  | .reservedRequestBits => .next (s.refuseRequest .illegalRequest)
  | .wrongLength => .refused .undecodable
  | .reservedByte => .refused .undecodable
  | .wrongAddress => .refused .undecodable
  | .wrongModuleByte => .refused .undecodable
  | .reservedLengthByte => .refused .undecodable
  | .badPayload => .refused .undecodable

end Sys2Proof.Machine
end

