-- ==== Sys2Proof/Machine/Step.lean ====
section
/-! DEFINITION. One step of the block: the host's turn, then the engine's fetch, decode and run. -/

namespace Sys2Proof.Machine

/-- One step of the engine (00_scope.md R14). -/
def engineStep (s : State) : Host.Outcome State Fault Refusal :=
  match s.fetch with
  | .finished t => .next t
  | .stopped f => .fault f
  | .called i t => exec i t
  | .bytes slot bs t =>
    match decode slot bs with
    | .ok i => exec i t
    | .rejected e => rejectBytes e t

/-- One step of the block (00_scope.md R14, R15). -/
def step (s : State) : Host.Outcome State Fault Refusal :=
  match s.hostTurn with
  | (t, true) => engineStep t
  | (t, false) => .next t

/-- `s` with the instruction that the table's word `w` of `nbits` bits decodes to placed where the next step fetches it
(log entry 13): a request on the port of the idle engine; a frame or a response as the next step of the sequencer, with the
latches, the buffer or the device's answer that make it; a primitive as the call. -/
def State.withFetchWord (s : State) (nbits w : Nat) : State := placeWord nbits w s

end Sys2Proof.Machine
end

