-- ==== Sys2Proof/Safety.lean ====
section
/-! DEFINITION. The terms in which claims speak of a run: the invariant of 10_state.md R57, the transaction of each phase, the
frames the engine may send, and the end of a wait. -/

namespace Sys2Proof.Machine

/-- 10_state.md R33: the phases of a `READ_DATA`, 1 to 6. -/
def Phase.ofRead : Phase → Bool
  | .rdWaitA => true
  | .rdLen => true
  | .rdCmd => true
  | .rdWaitB => true
  | .rdSel => true
  | .rdData => true
  | .idle => false
  | .wrWaitA => false
  | .wrData => false
  | .wrLen => false
  | .wrCmd => false
  | .wrWaitB => false

/-- 10_state.md R33: the phases of a `WRITE_DATA`, 7 to 11. -/
def Phase.ofWrite : Phase → Bool
  | .wrWaitA => true
  | .wrData => true
  | .wrLen => true
  | .wrCmd => true
  | .wrWaitB => true
  | .idle => false
  | .rdWaitA => false
  | .rdLen => false
  | .rdCmd => false
  | .rdWaitB => false
  | .rdSel => false
  | .rdData => false

/-- The phases after an operation's first wait: a probe has succeeded. -/
def Phase.pastFirstWait : Phase → Bool
  | .idle => false
  | .rdWaitA => false
  | .wrWaitA => false
  | .rdLen => true
  | .rdCmd => true
  | .rdWaitB => true
  | .rdSel => true
  | .rdData => true
  | .wrData => true
  | .wrLen => true
  | .wrCmd => true
  | .wrWaitB => true

/-- `k` steps of the block, as long as each answers a next state. -/
def runSteps : Nat → State → Host.Outcome State Fault Refusal
  | 0, s => .next s
  | k + 1, s =>
    match step s with
    | .next t => runSteps k t
    | .fault f => .fault f
    | .refused r => .refused r

/-- The invariant of 10_state.md R57, (a) to (h), with what R40, R41, R42 say of each result register, the canonical form
of the buffers, and the two clauses that make it inductive: `svPast` (a probe has succeeded once the first wait is over) and
`callBound` (a `WAIT_READY` called on its own is within the budget, log entry 8). R57 (c) holds by the types. -/
structure State.Inv (s : State) : Prop where
  /-- R57 (a) -/
  busyIff : s.busy = true ↔ s.phase ≠ .idle
  /-- R57 (b) -/
  busyNotDone : ¬ (s.busy = true ∧ s.done = true)
  /-- R57 (d) -/
  readOp : Phase.ofRead s.phase = true → s.rOp = 0#2
  /-- R57 (d) -/
  writeOp : Phase.ofWrite s.phase = true → s.rOp = 1#2
  /-- R57 (d) -/
  moduleLegal : s.phase ≠ .idle → ModuleId.ofByte s.rModule ≠ none
  /-- R57 (d) -/
  countFits : s.phase ≠ .idle → s.rWc.toNat ≤ Config.capWords
  /-- R57 (e) -/
  triesBound : s.tries.toNat ≤ s.build.retryBudget.toNat
  /-- what R57 (e) needs of a primitive called on its own -/
  callBound : ∀ n, s.world.call = some (.waitReady n) → n.toNat ≤ s.build.retryBudget.toNat
  /-- R57 (f) -/
  lenBound : s.resLen.toNat ≤ Config.capBytes
  /-- R57 (f) -/
  lenEven : s.resLen.toNat % 2 = 0
  /-- R57 (g) -/
  lenOfRead : s.done = true → s.resKind = .ok → s.rOp = 0#2 → s.resLen.toNat = byteLen s.rWc
  /-- R57 (h) -/
  svOfDone : s.done = true → s.resKind = .ok ∨ s.resKind = .notReady → s.sv = true
  /-- what R57 (h) needs during an operation -/
  svPast : Phase.pastFirstWait s.phase = true → s.sv = true
  /-- R41: 0 after anything but an `OK` `READ_DATA` -/
  lenOnlyRead : s.resLen ≠ 0#16 → s.done = true ∧ s.resKind = .ok ∧ s.rOp = 0#2
  /-- R40: 0 after anything but an `OK` `WRITE_DATA` -/
  statusOnlyWrite : s.resStatus ≠ 0#8 → s.done = true ∧ s.resKind = .ok ∧ s.rOp = 1#2
  /-- R42: written by `fail(NOT_READY)` only -/
  flagsOnlyNotReady : s.resFlags ≠ 0#2 → s.done = true ∧ s.resKind = .notReady
  /-- R42: never `0b10`, the ready condition -/
  flagsNotReadyPair : s.resFlags ≠ 2#2
  txWf : Memory.wf s.txbuf = true
  rxWf : Memory.wf s.rxbuf = true

/-- 10_state.md R34: the transaction of a wait phase: the write of the status address, or the read of the two status
bytes. -/
def State.probeTransaction (s : State) : BusEvent :=
  match s.poll with
  | .sel => .wrote [0x00#8, 0x02#8] s.nextCount
  | .read => .readBack 2 (ReadAnswer.count s.nextRead) (ReadAnswer.bytes s.nextRead)

/-- 30_encoding.md R98: the module byte of the latched module, by the formula on the byte. -/
def State.latchedModuleByte (s : State) : Byte :=
  (s.rModule &&& 0x0F#8) ||| (if s.rModule = 0x80#8 ∨ s.rModule = 0xE0#8 then 0x40#8 else 0x00#8)

/-- 10_state.md R33, 20_memory.md R70: the one bus transaction of the phase (and of `POLL`, R34), with the device's answer;
`none` while no operation runs. -/
def State.transaction (s : State) : Option BusEvent :=
  match s.phase with
  | .idle => none
  | .rdWaitA => some s.probeTransaction
  | .rdLen => some (.wrote [0x00#8, 0x06#8, hi8 s.rWc, lo8 s.rWc] s.nextCount)
  | .rdCmd => some (.wrote [0x00#8, 0x04#8, s.latchedModuleByte, s.rCmdid] s.nextCount)
  | .rdWaitB => some s.probeTransaction
  | .rdSel => some (.wrote [0x00#8, 0x08#8] s.nextCount)
  | .rdData => some (.readBack (byteLen s.rWc) (ReadAnswer.count s.nextRead) (ReadAnswer.bytes s.nextRead))
  | .wrWaitA => some s.probeTransaction
  | .wrData => some (.wrote ([0x00#8, 0x08#8] ++ s.txRun (byteLen s.rWc)) s.nextCount)
  | .wrLen => some (.wrote [0x00#8, 0x06#8, hi8 (writeLenField s.build.writeLenMode s.rWc), lo8 s.rWc] s.nextCount)
  | .wrCmd => some (.wrote [0x00#8, 0x04#8, s.latchedModuleByte, s.rCmdid + 1#8] s.nextCount)
  | .wrWaitB => some s.probeTransaction

/-- 30_encoding.md R102: the frames the engine may send, by length and byte 1; a payload frame is a whole number of words,
at most 1026 bytes. -/
def legalFrame : List Byte → Bool
  | [r, a] => r == 0x00#8 && (a == 0x02#8 || a == 0x08#8)
  | [r, a, x, _] =>
    r == 0x00#8 &&
      ((a == 0x04#8 && (x == 0x01#8 || x == 0x02#8 || x == 0x03#8 || x == 0x40#8)) || a == 0x06#8 || a == 0x08#8)
  | r :: a :: rest => r == 0x00#8 && a == 0x08#8 && rest.length % 2 == 0 && rest.length ≤ 1024
  | _ => false

/-- 41_ready_synchronizer.md R133: what the sequencer does with the outcome of a wait: leaves it, or ends the operation. A bus
error has ended it already. -/
def State.afterWait (r : WaitResult) (s : State) : State :=
  match r with
  | .ready => State.leaveWait s.stat s
  | .timedOut booted busy => State.fail (.notReady booted busy) s
  | .busError => s

/-- 30_encoding.md R95, 41_ready_synchronizer.md R131: the two bytes of a status response say ready. -/
def readyBytes (r : Byte × Byte) : Bool := r.2.getLsbD 2 && !r.2.getLsbD 0

/-- 44_engine_operations.md R180: `{S T}^k`, the trace of `k` whole probes with these status responses. -/
def probeTrace : List (Byte × Byte) → List BusEvent
  | [] => []
  | r :: rest => .wrote [0x00#8, 0x02#8] 2 :: .readBack 2 2 [r.1, r.2] :: probeTrace rest

/-- The answers of a device that takes every select write of `k` probes and gives these status responses. -/
def probeAnswers (rs : List (Byte × Byte)) : List ReadAnswer := rs.map fun r => .delivered [r.1, r.2]

end Sys2Proof.Machine
end

