-- ==== Sys2Proof/Certificates/Slice0/Obligations.lean ====
section
/-! DEFINITION. The statements for the provers. A next state is written as the state before with the fields the rules
change, so that every such equation is also the frame: nothing else changes. `State.afterWrite` and `State.afterRead` put
the transaction's event on the trace and take the device's answer; `State.nextCount` and `State.nextRead` are that answer,
listed or free, and no statement rests on its value. -/

open Sys2Proof Sys2Proof.Machine

/-! ### The primitives

A primitive called on its own gives its result in `world.unitOut`, the model's own field (log entry 8). -/

/-- 40_status_probe.md R120. The byte of the flags, the bits ignored and the sign are the spec's own decisions D2, D3, D4
(log entry 17). -/
def Obligations.DecodeStatusGivesCodeAndFlags : Prop :=
  ∀ (b0 b1 : Byte) (s : State), ∃ st : DeviceStatus,
    exec (.decodeStatus b0 b1) s = .next { s with world := { s.world with unitOut := .status st } } ∧
    sext8 st.code = (if b0.toNat < 128 then (b0.toNat : Int) else (b0.toNat : Int) - 256) ∧
    (st.booted = true ↔ b1 &&& 0x04#8 ≠ 0#8) ∧
    (st.bootMode = true ↔ b1 &&& 0x02#8 ≠ 0#8) ∧
    (st.busy = true ↔ b1 &&& 0x01#8 ≠ 0#8) ∧
    exec (.decodeStatus b0 (b1 &&& 0x07#8)) s = exec (.decodeStatus b0 b1) s

/-- 42_command_encoder.md R140, with the values of 00_scope.md R13. The sum modulo 256 is the spec's own decision D5 (log
entry 17). -/
def Obligations.EncCmdBuildsCommandFrame : Prop :=
  ∀ (m : ModuleId) (cid : Byte) (op : Opcode) (s : State),
    let module : Byte := match m with
      | .agc => 0x01#8 | .sys => 0x02#8 | .vid => 0x03#8 | .oem => 0x80#8 | .rad => 0xE0#8
    let opcode : Nat := match op with | .get => 0 | .set => 1 | .run => 2
    let oem : Byte := if module = 0x80#8 ∨ module = 0xE0#8 then 0x40#8 else 0x00#8
    exec (.encCmd m cid op) s = .next { s with world := { s.world with
      unitOut := .bytes [0x00#8, 0x04#8, (module &&& 0x0F#8) ||| oem, BitVec.ofNat 8 ((cid.toNat + opcode) % 256)] } }

/-- 42_command_encoder.md R141, called on its own (log entry 8). -/
def Obligations.EncLenRdSendsBothLengthBytes : Prop :=
  ∀ (wc : Half) (s : State),
    exec (.encLenRd wc) s = .next { s with world := { s.world with
      unitOut := .bytes [0x00#8, 0x06#8, BitVec.ofNat 8 (wc.toNat / 256), BitVec.ofNat 8 (wc.toNat % 256)] } } ∧
    be16 (BitVec.ofNat 8 (wc.toNat / 256)) (BitVec.ofNat 8 (wc.toNat % 256)) = wc

/-- 42_command_encoder.md R142, in both modes. The two modes are the spec's own decision D8 (log entry 17). -/
def Obligations.EncLenWrFormByMode : Prop :=
  ∀ (wc : Half) (s : State),
    (s.build.writeLenMode = .lowByte →
      exec (.encLenWr wc) s = .next { s with world := { s.world with
        unitOut := .bytes [0x00#8, 0x06#8, 0x00#8, BitVec.ofNat 8 (wc.toNat % 256)] } }) ∧
    (s.build.writeLenMode = .full16 → exec (.encLenWr wc) s = exec (.encLenRd wc) s)

/-- 43_payload_transfer.md R150. That the capacity counts payload bytes is the spec's own decision D9 (log entry 17). -/
def Obligations.PackWritePutsAddressThenPayload : Prop :=
  ∀ (data : List Byte) (wc : Half) (s : State), wc.toNat ≤ 512 → 2 * wc.toNat ≤ data.length →
    exec (.packWrite data wc) s = .next { s with world := { s.world with
      unitOut := .bytes ([0x00#8, 0x08#8] ++ data.take (2 * wc.toNat)) } }

/-- 43_payload_transfer.md R151. -/
def Obligations.UnpackReadIsTheIdentity : Prop :=
  ∀ (raw : List Byte) (wc : Half) (s : State), wc.toNat ≤ 512 → raw.length = 2 * wc.toNat →
    exec (.unpackRead raw wc) s = .next { s with world := { s.world with unitOut := .bytes raw } }

/-- The terms of the two marshaller rows, of `LEN_WR` and of the two payload rows that no bytes decode to are stopped by
name: the model's choice, log entry 23. -/
def Obligations.IllFormedOperandsAreRefused : Prop :=
  ∀ (bs : List Byte) (wc : Half) (s : State),
    (¬ (wc.toNat ≤ 512 ∧ 2 * wc.toNat ≤ bs.length) → exec (.packWrite bs wc) s = .refused .illFormedOperand) ∧
    (¬ (wc.toNat ≤ 512 ∧ bs.length = 2 * wc.toNat) → exec (.unpackRead bs wc) s = .refused .illFormedOperand) ∧
    (s.build.writeLenMode = .lowByte → 256 ≤ wc.toNat → exec (.lenWr wc) s = .refused .illFormedOperand) ∧
    (¬ (bs.length % 2 = 0 ∧ bs.length ≤ 1024) → exec (.dataWr bs) s = .refused .illFormedOperand) ∧
    (1024 < bs.length → exec (.dataRsp bs) s = .fault .bufferIndex) ∧
    (bs.length ≤ 1024 → bs.length % 2 = 1 → exec (.dataRsp bs) s = .refused .illFormedOperand)

/-- 43_payload_transfer.md R154. That it is a unit of its own is the spec's own decision D33 (log entry 17). -/
def Obligations.Swap16ExchangesTheBytes : Prop :=
  ∀ (v : Half) (s : State),
    exec (.swap16 v) s = .next { s with world := { s.world with
      unitOut := .half (BitVec.ofNat 16 ((v.toNat % 256) * 256 + v.toNat / 256)) } } ∧
    swapBytes (swapBytes v) = v

/-- 40_status_probe.md R121, both transactions succeed. -/
def Obligations.ProbeLatchesTheWholeStatus : Prop :=
  ∀ (b0 b1 : Byte) (s : State), s.nextCount = 2 →
    (s.afterWrite [0x00#8, 0x02#8]).nextRead = .delivered [b0, b1] →
    ∃ t, exec .probe s = .next t ∧
      t = { s with stat := decodeStatusBytes b0 b1, sv := true, world := t.world } ∧
      t.world = { s.world with
        writeAnswers := s.world.writeAnswers.tail
        readAnswers := s.world.readAnswers.tail
        trace := s.world.trace ++ [.wrote [0x00#8, 0x02#8] 2, .readBack 2 2 [b0, b1]]
        tick := s.world.tick + 2
        unitOut := .probed (some (decodeStatusBytes b0 b1)) }

/-- 40_status_probe.md R121, a transaction fails: the read is not issued after a failed address write, and `STAT` and `SV`
keep their old values. Called on its own while no operation runs, a failed probe leaves every register: log entry 9. -/
def Obligations.FailedProbeKeepsTheStatus : Prop :=
  ∀ (s : State), s.phase = .idle →
    (s.nextCount ≠ 2 → ∃ t, exec .probe s = .next t ∧ t = { s with world := t.world } ∧
      t.world.unitOut = .probed none ∧
      t.world.trace = s.world.trace ++ [.wrote [0x00#8, 0x02#8] s.nextCount]) ∧
    (s.nextCount = 2 → ∀ a, (s.afterWrite [0x00#8, 0x02#8]).nextRead = a → ReadAnswer.count a ≠ 2 →
      ∃ t, exec .probe s = .next t ∧ t = { s with world := t.world } ∧ t.world.unitOut = .probed none ∧
        t.world.trace = s.world.trace ++
          [.wrote [0x00#8, 0x02#8] 2, .readBack 2 (ReadAnswer.count a) (ReadAnswer.bytes a)])

/-- 41_ready_synchronizer.md R130, corner cases (b) and (d): ready at probe `k`, exactly `k` probes,
`TRIES = n - (k - 1)`. -/
def Obligations.WaitReadyEndsAtTheFirstReadyProbe : Prop :=
  ∀ (n : Byte) (waits : List (Byte × Byte)) (last : Byte × Byte) (ws : List Int) (rs : List ReadAnswer) (s : State),
    waits.length ≤ n.toNat → (∀ r ∈ waits, readyBytes r = false) → readyBytes last = true →
    s.world.writeAnswers = List.replicate (waits.length + 1) 2 ++ ws →
    s.world.readAnswers = probeAnswers (waits ++ [last]) ++ rs →
    ∃ t, exec (.waitReady n) s = .next t ∧
      t = { s with
        stat := decodeStatusBytes last.1 last.2, sv := true, sync := .ready, poll := .read
        tries := BitVec.ofNat 8 (n.toNat - waits.length), world := t.world } ∧
      t.world = { s.world with
        writeAnswers := ws, readAnswers := rs, unitOut := .waited .ready
        trace := s.world.trace ++ probeTrace (waits ++ [last])
        tick := s.world.tick + 2 * (waits.length + 1) }

/-- 41_ready_synchronizer.md R130, corner cases (a) and (c): never ready, exactly `n + 1` probes, the last observed pair. -/
def Obligations.WaitReadyTimesOutAfterAllProbes : Prop :=
  ∀ (n : Byte) (waits : List (Byte × Byte)) (last : Byte × Byte) (ws : List Int) (rs : List ReadAnswer) (s : State),
    waits.length = n.toNat → (∀ r ∈ waits, readyBytes r = false) → readyBytes last = false →
    s.world.writeAnswers = List.replicate (waits.length + 1) 2 ++ ws →
    s.world.readAnswers = probeAnswers (waits ++ [last]) ++ rs →
    ∃ t, exec (.waitReady n) s = .next t ∧
      t = { s with
        stat := decodeStatusBytes last.1 last.2, sv := true, sync := .timedOut, poll := .read
        tries := 0#8, world := t.world } ∧
      t.world = { s.world with
        writeAnswers := ws, readAnswers := rs
        unitOut := .waited (.timedOut (last.2.getLsbD 2) (last.2.getLsbD 0))
        trace := s.world.trace ++ probeTrace (waits ++ [last])
        tick := s.world.tick + 2 * (waits.length + 1) }

/-! ### The buffers and the word view -/

/-- 10_state.md R28. The word view is the spec's own decision D32 (log entry 17). -/
def Obligations.BufferWordsAreBigEndian : Prop :=
  ∀ (m : Memory) (i : Nat) (w : Half) (h l : Byte),
    Memory.word (Memory.write (Memory.write m (2 * i) (hi8 w)) (2 * i + 1) (lo8 w)) i = some w ∧
    (Memory.read m (2 * i) = some h → Memory.read m (2 * i + 1) = some l →
      ∃ v, Memory.word m i = some v ∧ v.toNat = h.toNat * 256 + l.toNat)

/-- 43_payload_transfer.md R152: the payload part of a `DATA_WR` frame is the words of `TXBUF`, each high byte first. -/
def Obligations.PayloadFrameCarriesTheWordsOfTxbuf : Prop :=
  ∀ (ws : List Half) (s : State), s.phase = .wrData → s.world.host = [] →
    ws.length ≤ 512 → s.rWc = BitVec.ofNat 16 ws.length →
    (∀ j w, ws[j]? = some w → Memory.word s.txbuf j = some w) →
    ∃ t, step s = .next t ∧
      t.world.trace = s.world.trace ++
        [.wrote ([0x00#8, 0x08#8] ++ ws.flatMap fun w => [hi8 w, lo8 w]) s.nextCount]

/-! ### The start step -/

/-- 44_engine_operations.md R160 and R162: an accepted request of either operation. -/
def Obligations.AcceptedRequestsEnterTheirFirstWait : Prop :=
  ∀ (m c : Byte) (w : Half) (s : State), s.phase = .idle →
    m ∈ [0x01#8, 0x02#8, 0x03#8, 0x80#8, 0xE0#8] → w.toNat ≤ 512 →
    let started (op : BitVec 2) (p : Phase) : State := { s with
      hreq := none, rOp := op, rModule := m, rCmdid := c, rWc := w
      resKind := .ok, resStatus := 0#8, resLen := 0#16, resFlags := 0#2
      done := false, busy := true, phase := p, poll := .sel
      tries := s.build.retryBudget, sync := .polling }
    exec (.readData m c w) s = .next (started 0#2 .rdWaitA) ∧
    exec (.writeData m c w) s = .next (started 1#2 .wrWaitA)

/-- 44_engine_operations.md R161, R176; 60_exceptions.md R194: the refusal is the effect of these two rows. -/
def Obligations.RunAndOp3RequestsAreIllegal : Prop :=
  ∀ (m c : Byte) (w : Half) (s : State), s.phase = .idle →
    let refused : State := { s with
      hreq := none, resStatus := 0#8, resLen := 0#16, resFlags := 0#2, resKind := .illegalRequest, done := true }
    exec (.hreqRun m c w) s = .next refused ∧ exec (.hreqOp3 m c w) s = .next refused

/-- 44_engine_operations.md R161, 60_exceptions.md R193, R194, R197: module before capacity. The refusals and their order
are the spec's own decisions D6, D10, D27 (log entry 17). -/
def Obligations.ReadAndWriteRefusalsByModuleThenCapacity : Prop :=
  ∀ (m c : Byte) (w : Half) (s : State), s.phase = .idle →
    let refused (k : ResKind) : State := { s with
      hreq := none, resStatus := 0#8, resLen := 0#16, resFlags := 0#2, resKind := k, done := true }
    (m ∉ [0x01#8, 0x02#8, 0x03#8, 0x80#8, 0xE0#8] →
      exec (.readData m c w) s = .next (refused .illegalRequest) ∧
      exec (.writeData m c w) s = .next (refused .illegalRequest)) ∧
    (m ∈ [0x01#8, 0x02#8, 0x03#8, 0x80#8, 0xE0#8] → 1024 < 2 * w.toNat →
      exec (.readData m c w) s = .next (refused .capacityError) ∧
      exec (.writeData m c w) s = .next (refused .capacityError))

/-- 44_engine_operations.md R160 and R161, on the 40 bits of the word as it stands on the port. The request word and the
checks are the spec's own decisions D1, D6, D7, D10, D27, D30 (log entry 17). -/
def Obligations.StartStepJudgesTheRawRequestWord : Prop :=
  ∀ (q : ReqWord) (s : State), s.phase = .idle → s.hreq = some q → s.world.host = [] →
    let cleared : State := { s with hreq := none, resStatus := 0#8, resLen := 0#16, resFlags := 0#2 }
    let refused (k : ResKind) : State := { cleared with resKind := k, done := true }
    step s = .next (
      if q.extractLsb' 34 6 ≠ 0#6 then refused .illegalRequest
      else if 2 ≤ (q.extractLsb' 32 2).toNat then refused .illegalRequest
      else if q.extractLsb' 24 8 ∉ [0x01#8, 0x02#8, 0x03#8, 0x80#8, 0xE0#8] then refused .illegalRequest
      else if 1024 < 2 * (q.extractLsb' 0 16).toNat then refused .capacityError
      else { cleared with
        rOp := q.extractLsb' 32 2, rModule := q.extractLsb' 24 8, rCmdid := q.extractLsb' 16 8
        rWc := q.extractLsb' 0 16, resKind := .ok, done := false, busy := true
        phase := if q.extractLsb' 32 2 = 0#2 then .rdWaitA else .wrWaitA
        poll := .sel, tries := s.build.retryBudget, sync := .polling })

/-- 10_state.md R46: a write of `HREQ` is held while an operation runs; that it stays on the port is the model's choice,
log entry 7. -/
def Obligations.RequestsAreHeldWhileAnOperationRuns : Prop :=
  ∀ (m c : Byte) (w : Half) (s : State), s.phase ≠ .idle →
    exec (.readData m c w) s = .next { s with hreq := some (requestWord 0#2 m c w) } ∧
    exec (.writeData m c w) s = .next { s with hreq := some (requestWord 1#2 m c w) } ∧
    exec (.hreqRun m c w) s = .next { s with hreq := some (requestWord 2#2 m c w) } ∧
    exec (.hreqOp3 m c w) s = .next { s with hreq := some (requestWord 3#2 m c w) }

/-! ### The frames -/

/-- 41_ready_synchronizer.md R132. That a transaction is a step of its own is the spec's own decision D22 (log entry 17). -/
def Obligations.StatusSelMovesTheProbeToItsRead : Prop :=
  ∀ (s : State), s.phase ∈ [Phase.rdWaitA, .rdWaitB, .wrWaitA, .wrWaitB] → s.poll = .sel →
    engineStep s = exec .statusSel s ∧
    exec .statusSel s = .next (
      let t := s.afterWrite [0x00#8, 0x02#8]
      if s.nextCount = 2 then { t with poll := .read }
      else { t with resKind := .busError, busy := false, done := true, phase := .idle })

/-- 44_engine_operations.md R164. -/
def Obligations.LenRdStep : Prop :=
  ∀ (len : Half) (s : State), s.phase = .rdLen →
    engineStep s = exec (.lenRd s.rWc) s ∧
    exec (.lenRd len) s = .next (
      let t := s.afterWrite [0x00#8, 0x06#8, BitVec.ofNat 8 (len.toNat / 256), BitVec.ofNat 8 (len.toNat % 256)]
      if s.nextCount = 4 then { t with phase := .rdCmd }
      else { t with resKind := .busError, busy := false, done := true, phase := .idle })

/-- 44_engine_operations.md R165: the step of `RD_CMD`, for each of the five modules, and the frame's meaning for every
opcode byte. -/
def Obligations.CommandStepOfReadEntersTheCompletionWait : Prop :=
  ∀ (m : ModuleId) (k : Byte) (s : State), s.phase = .rdCmd →
    (s.rModule = ModuleId.code m → engineStep s = exec (commandInstr m s.rCmdid) s) ∧
    exec (commandInstr m k) s = .next (
      let t := s.afterWrite [0x00#8, 0x04#8, moduleByte m, k]
      if s.nextCount = 4 then
        { t with phase := .rdWaitB, poll := .sel, tries := s.build.retryBudget, sync := .polling }
      else { t with resKind := .busError, busy := false, done := true, phase := .idle })

/-- 44_engine_operations.md R172: the step of `WR_CMD`, for each of the five modules, with `SET` = 1 added modulo 256. -/
def Obligations.CommandStepOfWriteEntersTheCompletionWait : Prop :=
  ∀ (m : ModuleId) (k : Byte) (s : State), s.phase = .wrCmd →
    (s.rModule = ModuleId.code m →
      engineStep s = exec (commandInstr m (BitVec.ofNat 8 ((s.rCmdid.toNat + 1) % 256))) s) ∧
    exec (commandInstr m k) s = .next (
      let t := s.afterWrite [0x00#8, 0x04#8, moduleByte m, k]
      if s.nextCount = 4 then
        { t with phase := .wrWaitB, poll := .sel, tries := s.build.retryBudget, sync := .polling }
      else { t with resKind := .busError, busy := false, done := true, phase := .idle })

/-- 44_engine_operations.md R167. -/
def Obligations.DataSelStep : Prop :=
  ∀ (s : State), s.phase = .rdSel →
    engineStep s = exec .dataSel s ∧
    exec .dataSel s = .next (
      let t := s.afterWrite [0x00#8, 0x08#8]
      if s.nextCount = 2 then { t with phase := .rdData }
      else { t with resKind := .busError, busy := false, done := true, phase := .idle })

/-- 44_engine_operations.md R170: the payload frame is made of `TXBUF[0 .. 2*R_WC - 1]`; the byte that stands for one the
host never wrote is a free value. The free value is the model's choice, log entry 5. -/
def Obligations.DataWrStepSendsTxbuf : Prop :=
  ∀ (p : List Byte) (s : State), s.phase = .wrData →
    (s.rWc.toNat ≤ 512 →
      engineStep s = exec (.dataWr ((List.range (2 * s.rWc.toNat)).map fun i =>
        (Memory.read s.txbuf i).getD (Config.freeTxByte s.world.tick i))) s) ∧
    (p.length % 2 = 0 → p.length ≤ 1024 →
      exec (.dataWr p) s = .next (
        let t := s.afterWrite ([0x00#8, 0x08#8] ++ p)
        if s.nextCount = (p.length : Int) + 2 then { t with phase := .wrLen }
        else { t with resKind := .busError, busy := false, done := true, phase := .idle }))

/-- 44_engine_operations.md R171, in both modes of `WRITE_LEN_MODE`: that there is a `FULL16` form beside the low byte of R171
is 42_command_encoder.md R142 and the spec's own decision D8 (log entries 2, 17). -/
def Obligations.LenWrStepByMode : Prop :=
  ∀ (len : Half) (s : State), s.phase = .wrLen →
    (s.build.writeLenMode = .lowByte →
      engineStep s = exec (.lenWr (BitVec.ofNat 16 (s.rWc.toNat % 256))) s) ∧
    (s.build.writeLenMode = .full16 → engineStep s = exec (.lenWr s.rWc) s) ∧
    (s.build.writeLenMode = .full16 ∨ len.toNat < 256 →
      exec (.lenWr len) s = .next (
        let t := s.afterWrite [0x00#8, 0x06#8, BitVec.ofNat 8 (len.toNat / 256), BitVec.ofNat 8 (len.toNat % 256)]
        if s.nextCount = 4 then { t with phase := .wrCmd }
        else { t with resKind := .busError, busy := false, done := true, phase := .idle }))

/-- Each of the ten frame rows outside the phases of its own is one bus write and no other change where the whole frame was
taken or no operation runs (log entry 9), and the error entry else; a status response outside a wait is latched and no more; a
data response outside `RD_DATA` is dropped: the model's choice, log entry 10. -/
def Obligations.RowsOutsideTheirPhaseLeaveTheSequencer : Prop :=
  ∀ (m : ModuleId) (k b0 b1 : Byte) (len : Half) (p : List Byte) (s : State),
    let sent (frame : List Byte) : State :=
      if s.nextCount = (frame.length : Int) ∨ s.phase = .idle then s.afterWrite frame
      else { s.afterWrite frame with resKind := .busError, busy := false, done := true, phase := .idle }
    (s.phase ∉ [Phase.rdWaitA, .rdWaitB, .wrWaitA, .wrWaitB] → exec .statusSel s = .next (sent [0x00#8, 0x02#8])) ∧
    (s.phase ≠ .rdSel → exec .dataSel s = .next (sent [0x00#8, 0x08#8])) ∧
    (s.phase ≠ .rdLen → exec (.lenRd len) s = .next (sent [0x00#8, 0x06#8, hi8 len, lo8 len])) ∧
    (s.phase ≠ .wrLen → s.build.writeLenMode = .full16 ∨ len.toNat < 256 →
      exec (.lenWr len) s = .next (sent [0x00#8, 0x06#8, hi8 len, lo8 len])) ∧
    (s.phase ≠ .rdCmd → s.phase ≠ .wrCmd →
      exec (commandInstr m k) s = .next (sent [0x00#8, 0x04#8, moduleByte m, k])) ∧
    (s.phase ≠ .wrData → p.length % 2 = 0 → p.length ≤ 1024 →
      exec (.dataWr p) s = .next (sent ([0x00#8, 0x08#8] ++ p))) ∧
    (s.phase ∉ [Phase.rdWaitA, .rdWaitB, .wrWaitA, .wrWaitB] →
      exec (.statusRsp b0 b1) s = .next { s with
        stat := { code := b0, booted := b1.getLsbD 2, bootMode := b1.getLsbD 1, busy := b1.getLsbD 0 }, sv := true }) ∧
    (s.phase ≠ .rdData → p.length % 2 = 0 → p.length ≤ 1024 → exec (.dataRsp p) s = .next s)

/-- 30_encoding.md R104. -/
def Obligations.OemRadAndOpcodeSumAlias : Prop :=
  (∀ (k : Byte) (s : State), exec (.cmdRad k) s = exec (.cmdOem k) s) ∧
  (∀ (cid : Byte) (op : Opcode), encodeCommand .rad cid op = encodeCommand .oem cid op) ∧
  (∀ (m : ModuleId) (cid : Byte),
    encodeCommand m cid .set = encodeCommand m (cid + 1#8) .get ∧
    encodeCommand m cid .run = encodeCommand m (cid + 1#8) .set)

/-! ### The responses -/

/-- 41_ready_synchronizer.md R133, the ready branch, in the three waits that go on; 44_engine_operations.md R163, R166,
R169. -/
def Obligations.ReadyStatusLeavesTheWait : Prop :=
  ∀ (b0 b1 : Byte) (s : State), b1.getLsbD 2 = true → b1.getLsbD 0 = false →
    let go (p : Phase) : State := { s with
      stat := { code := b0, booted := true, bootMode := b1.getLsbD 1, busy := false }, sv := true, sync := .ready
      phase := p }
    (s.phase = .rdWaitA → exec (.statusRsp b0 b1) s = .next (go .rdLen)) ∧
    (s.phase = .rdWaitB → exec (.statusRsp b0 b1) s = .next (go .rdSel)) ∧
    (s.phase = .wrWaitA → exec (.statusRsp b0 b1) s = .next (go .wrData))

/-- 44_engine_operations.md R173, R174, R175: the last probe of a `WRITE_DATA` ends it with its code. -/
def Obligations.ReadyStatusCompletesWriteDataWithItsCode : Prop :=
  ∀ (b0 b1 : Byte) (s : State), b1.getLsbD 2 = true → b1.getLsbD 0 = false → s.phase = .wrWaitB →
    exec (.statusRsp b0 b1) s = .next { s with
      stat := { code := b0, booted := true, bootMode := b1.getLsbD 1, busy := false }, sv := true, sync := .ready
      resStatus := b0, resKind := .ok, busy := false, done := true, phase := .idle }

/-- 41_ready_synchronizer.md R133, the other two branches; 60_exceptions.md R192, R198. -/
def Obligations.NotReadyStatusRetriesOrTimesOut : Prop :=
  ∀ (b0 b1 : Byte) (s : State), ¬ (b1.getLsbD 2 = true ∧ b1.getLsbD 0 = false) →
    s.phase ∈ [Phase.rdWaitA, .rdWaitB, .wrWaitA, .wrWaitB] →
    let latched : State := { s with stat := decodeStatusBytes b0 b1, sv := true }
    (s.tries ≠ 0#8 →
      exec (.statusRsp b0 b1) s = .next { latched with tries := s.tries - 1#8, poll := .sel }) ∧
    (s.tries = 0#8 →
      exec (.statusRsp b0 b1) s = .next { latched with
        sync := .timedOut, resKind := .notReady
        resFlags := BitVec.ofNat 2 ((b1.getLsbD 2).toNat * 2 + (b1.getLsbD 0).toNat)
        busy := false, done := true, phase := .idle })

/-- 44_engine_operations.md R168, a data read that succeeds: every byte of `RXBUF`, and the frame. -/
def Obligations.DataResponseFillsRxbufAndCompletes : Prop :=
  ∀ (p : List Byte) (s : State), s.phase = .rdData → p.length % 2 = 0 → p.length ≤ 1024 →
    ∃ t, exec (.dataRsp p) s = .next t ∧
      t = { s with
        rxbuf := t.rxbuf, resLen := BitVec.ofNat 16 p.length, resKind := .ok
        busy := false, done := true, phase := .idle } ∧
      (∀ i, i < p.length → Memory.read t.rxbuf i = p[i]?) ∧
      (∀ i, p.length ≤ i → Memory.read t.rxbuf i = Memory.read s.rxbuf i)

/-! ### The sequencer -/

/-- The step: with no host access to come, the fetched bytes that decode to `i` run as `exec i` in the state after the fetch;
a primitive called on its own likewise (log entries 8, 11). -/
def Obligations.StepRunsTheDecodedInstruction : Prop :=
  ∀ (slot : Slot) (bs : List Byte) (i : Instr) (s t : State), s.world.host = [] →
    (s.fetch = .bytes slot bs t → decode slot bs = .ok i → step s = exec i t) ∧
    (s.fetch = .called i t → step s = exec i t)

/-- 41_ready_synchronizer.md R133, 60_exceptions.md R197: a status read of two bytes runs as `STATUS_RSP`; any other count is
`BUS_ERROR`, nothing is decoded and `TRIES` is not touched, even when it is 0. -/
def Obligations.StatusReadChecksTheBusFirst : Prop :=
  ∀ (s : State), s.phase ∈ [Phase.rdWaitA, .rdWaitB, .wrWaitA, .wrWaitB] → s.poll = .read → s.world.host = [] →
    (∀ b0 b1, s.nextRead = .delivered [b0, b1] → step s = exec (.statusRsp b0 b1) (s.afterRead 2)) ∧
    (ReadAnswer.count s.nextRead ≠ 2 →
      step s = .next { s.afterRead 2 with resKind := .busError, busy := false, done := true, phase := .idle })

/-- 44_engine_operations.md R168: the data read as a step, for every count `n = 2 * R_WC`, 0 among them. It succeeds: it
runs as `DATA_RSP`, `RXBUF[0 .. n-1]` holds the bytes, the rest of `RXBUF` is as before. It fails: every register but the
result kind and the sequencer's is as before, and `RXBUF[n ..]`; the first `n` bytes are unspecified, so nothing is said of
them. The count 0 and the unspecified bytes are the spec's own decisions D11, D13 (log entry 17). -/
def Obligations.DataReadStep : Prop :=
  ∀ (s : State), s.phase = .rdData → s.world.host = [] → s.rWc.toNat ≤ 512 →
    (∀ p, s.nextRead = .delivered p → p.length = 2 * s.rWc.toNat →
      step s = exec (.dataRsp p) (s.afterRead (2 * s.rWc.toNat)) ∧
      ∃ t, step s = .next t ∧
        t = { s.afterRead (2 * s.rWc.toNat) with
          rxbuf := t.rxbuf, resLen := BitVec.ofNat 16 p.length, resKind := .ok
          busy := false, done := true, phase := .idle } ∧
        (∀ i, i < p.length → Memory.read t.rxbuf i = p[i]?) ∧
        (∀ i, p.length ≤ i → Memory.read t.rxbuf i = Memory.read s.rxbuf i)) ∧
    (ReadAnswer.count s.nextRead ≠ 2 * (s.rWc.toNat : Int) →
      ∃ t, step s = .next t ∧
        t = { s.afterRead (2 * s.rWc.toNat) with
          rxbuf := t.rxbuf, resKind := .busError, busy := false, done := true, phase := .idle } ∧
        ∀ i, 2 * s.rWc.toNat ≤ i → Memory.read t.rxbuf i = Memory.read s.rxbuf i)

/-- 10_state.md R32, R56; 70_reset_and_hazards.md R220: with nothing asked of it the idle engine does nothing. -/
def Obligations.IdleEngineWaitsForARequest : Prop :=
  ∀ (s : State), s.phase = .idle → s.hreq = none → s.world.call = none → s.world.host = [] → step s = .next s

/-- 10_state.md R37: every edge of `PHASE`, for a step of the engine. The spec marks the list of edges as its own
derivation. -/
def Obligations.PhaseMovesOnlyAlongItsOperation : Prop :=
  ∀ (s t : State), engineStep s = .next t →
    (s.phase = .idle → t.phase = .idle ∨ t.phase = .rdWaitA ∨ t.phase = .wrWaitA) ∧
    (Phase.isWait s.phase = true → t.phase = s.phase ∨ t.phase = Phase.next s.phase ∨ t.phase = .idle) ∧
    (s.phase ≠ .idle → Phase.isWait s.phase = false → t.phase = Phase.next s.phase ∨ t.phase = .idle)

/-- 00_scope.md R14; 10_state.md R33; 20_memory.md R70: a step of a running operation is exactly the transaction of its
phase. One transaction a step is the spec's own decision D22 (log entry 17). -/
def Obligations.EachStepIsTheTransactionOfItsPhase : Prop :=
  ∀ (s t : State), State.Inv s → s.phase ≠ .idle → engineStep s = .next t →
    ∃ e, s.transaction = some e ∧ t.world.trace = s.world.trace ++ [e]

/-- 20_memory.md R61, 30_encoding.md R102: whatever the host does, a step puts nothing on the bus but one frame of the map
or one read of a whole number of words. The spec marks the address map as its own derivation. -/
def Obligations.OnlyMappedFramesReachTheBus : Prop :=
  ∀ (s t : State), State.Inv s → s.world.call = none → step s = .next t →
    t.world.trace = s.world.trace ∨
    (∃ f r, t.world.trace = s.world.trace ++ [.wrote f r] ∧ legalFrame f = true) ∨
    (∃ n r b, t.world.trace = s.world.trace ++ [.readBack n r b] ∧ n % 2 = 0 ∧ n ≤ 1024)

/-- 10_state.md R22 to R27, R30: what the engine's step never changes while an operation runs, whatever accesses are held. -/
def Obligations.RunningOperationKeepsLatchesAndTxbuf : Prop :=
  ∀ (s t : State), s.phase ≠ .idle → engineStep s = .next t →
    t.rOp = s.rOp ∧ t.rModule = s.rModule ∧ t.rCmdid = s.rCmdid ∧ t.rWc = s.rWc ∧ t.txbuf = s.txbuf ∧
    t.build = s.build ∧ t.hreq = s.hreq ∧ (s.sv = true → t.sv = true) ∧
    (s.phase ≠ .rdData → t.rxbuf = s.rxbuf ∧ t.resLen = s.resLen) ∧
    (s.phase ≠ .wrWaitB → t.resStatus = s.resStatus)

/-- 70_reset_and_hazards.md R231: under `LOW_BYTE` a `WRITE_DATA` of 256 to 512 words announces `wc mod 256` words, and
goes on. -/
def Obligations.LongWritesAnnounceTheirCountModulo256 : Prop :=
  ∀ (s : State), s.phase = .wrLen → s.world.host = [] → s.build.writeLenMode = .lowByte →
    256 ≤ s.rWc.toNat → s.rWc.toNat ≤ 512 → s.nextCount = 4 →
    step s = .next { s.afterWrite [0x00#8, 0x06#8, 0x00#8, BitVec.ofNat 8 (s.rWc.toNat % 256)] with phase := .wrCmd }

/-- 30_encoding.md R104 a; 70_reset_and_hazards.md R233: an operation for RAD goes step by step as the same operation for
OEM, and only the module latch tells them apart. -/
def Obligations.RadOperationRunsAsOem : Prop :=
  ∀ (s t : State), s.phase ≠ .idle → s.world.host = [] → s.rModule = 0x80#8 → step s = .next t →
    step { s with rModule := 0xE0#8 } = .next { t with rModule := 0xE0#8 }

/-! ### The host's accesses and reset -/

/-- 10_state.md R46: an access other than a read of `HSTAT` waits while an operation runs, and still stands first: the engine
steps, or a read of `HSTAT` behind it is served. The reset behind it is `ResetReleasesAHeldAccess`. -/
def Obligations.HostAccessesAreHeldWhileBusy : Prop :=
  ∀ (a : HostAct) (rest : List HostAct) (s t : State), s.busy = true → s.world.host = a :: rest →
    a ∉ [HostAct.pass, .reset, .readHstat] → step s = .next t →
    ((∀ e ∈ rest.head?, e ∉ [HostAct.pass, .reset, .readHstat]) →
      engineStep s = .next t ∧ t.world.host = a :: rest ∧ t.world.hostLog = s.world.hostLog) ∧
    (∀ more, rest = .pass :: more →
      engineStep { s with world := { s.world with host := a :: more } } = .next t ∧
      t.world.host = a :: more ∧ t.world.hostLog = s.world.hostLog) ∧
    (∀ more, rest = .readHstat :: more →
      t = { s with world := { s.world with host := a :: more, hostLog := s.world.hostLog ++ [.hstat s.hstat] } })

/-- 10_state.md R38, R46: a read of `HSTAT` is served at any time, with its three bits and zeros, and changes nothing. -/
def Obligations.HstatReadsAreNeverHeld : Prop :=
  ∀ (rest : List HostAct) (s : State), s.world.host = .readHstat :: rest →
    ∃ v : Byte, step s = .next { s with world := { s.world with
        host := rest, hostLog := s.world.hostLog ++ [.hstat v] } } ∧
      v.getLsbD 0 = s.busy ∧ v.getLsbD 1 = s.done ∧ v.getLsbD 2 = s.sv ∧ v.toNat < 8

/-- 10_state.md R39 to R44: the reads of the result registers, of `STAT` and of `SYNC`, and a use of the `SWAP16` unit
(log entry 20), while no operation runs. Before the first successful probe `STAT` has no value in the spec (R30, R56), and
that a read returns what the latch was given at reset is the model's choice, log entry 4. -/
def Obligations.IdleReadsReturnTheRegisters : Prop :=
  ∀ (a : HostAct) (r : HostReply) (v : Half) (rest : List HostAct) (s : State), s.busy = false → s.hreq = none →
    (a, r) ∈ [(HostAct.readKind, HostReply.kind (match s.resKind with
        | .ok => 0#3 | .notReady => 1#3 | .busError => 2#3 | .capacityError => 3#3 | .illegalRequest => 4#3)),
      (.readStatus, .status s.resStatus), (.readLen, .len s.resLen), (.readFlags, .flags s.resFlags),
      (.readStat, .stat s.stat),
      (.readSync, .sync (match s.sync with | .polling => 0#2 | .ready => 1#2 | .timedOut => 2#2)),
      (.swap16 v, .half (BitVec.ofNat 16 ((v.toNat % 256) * 256 + v.toNat / 256)))] →
    s.world.host = a :: rest →
    step s = .next { s with world := { s.world with host := rest, hostLog := s.world.hostLog ++ [r] } }

/-- 10_state.md R26, R27: the host's accesses to the buffers while no operation runs. -/
def Obligations.HostBufferAccesses : Prop :=
  ∀ (i : Fin 1024) (b : Byte) (rest : List HostAct) (s : State), s.busy = false → s.hreq = none →
    (s.world.host = .writeTx i b :: rest →
      ∃ t, step s = .next t ∧ t = { s with txbuf := t.txbuf, world := { s.world with host := rest } } ∧
        Memory.read t.txbuf i.val = some b ∧ ∀ j, j ≠ i.val → Memory.read t.txbuf j = Memory.read s.txbuf j) ∧
    (s.world.host = .readTx i :: rest → Memory.read s.txbuf i.val = some b →
      step s = .next { s with world := { s.world with
        host := rest, hostLog := s.world.hostLog ++ [.byte b], tick := s.world.tick + 1 } }) ∧
    (s.world.host = .readRx i :: rest → Memory.read s.rxbuf i.val = some b →
      step s = .next { s with world := { s.world with
        host := rest, hostLog := s.world.hostLog ++ [.byte b], tick := s.world.tick + 1 } })

/-- 44_engine_operations.md R160: the host's write of `HREQ`, once no operation runs, is taken by the start step. -/
def Obligations.HreqWriteIsTakenByTheStartStep : Prop :=
  ∀ (q : ReqWord) (rest : List HostAct) (s : State), s.busy = false → s.hreq = none → s.phase = .idle →
    s.world.host = .writeHreq q :: rest →
    step s = engineStep { s with hreq := some q, world := { s.world with host := rest } } ∧
    ∃ t, step s = .next t ∧ t.hreq = none

/-- 10_state.md R56; 70_reset_and_hazards.md R220, R221: the reset input in any state: every register the rule gives a value;
the device side, the trace and the accesses to come are not touched, and a write of `HREQ` not yet taken off the port is
released: it comes again (log entry 16). `STAT` and the buffers hold no value, and nothing is said of what they read as (log
entries 4, 5). -/
def Obligations.ResetInputDropsEverything : Prop :=
  ∀ (rest : List HostAct) (s : State), s.world.host = .reset :: rest →
    ∃ t, step s = .next t ∧
      t = { hreq := none, rOp := 0#2, rModule := 0#8, rCmdid := 0#8, rWc := 0#16, txbuf := [], rxbuf := []
            stat := t.stat, phase := .idle, poll := .sel, sync := .polling, tries := 0#8
            busy := false, done := false, sv := false, resKind := .ok, resStatus := 0#8, resLen := 0#16
            resFlags := 0#2, build := s.build
            world := { s.world with
              host := match s.hreq with | some q => .writeHreq q :: rest | none => rest
              tick := s.world.tick + 1 } }

/-- 10_state.md R56 and 00_scope.md R6: the state after reset, in which the engine does nothing. `STAT` holds no value, and
nothing is said of it (log entry 4). The reset values are the spec's own decision D17 (log entry 17). -/
def Obligations.ResetStateHasTheStatedValues : Prop :=
  let s := State.reset
  s.hreq = none ∧ s.phase = .idle ∧ s.poll = .sel ∧ s.sync = .polling ∧ s.tries = 0#8 ∧
  s.rOp = 0#2 ∧ s.rModule = 0#8 ∧ s.rCmdid = 0#8 ∧ s.rWc = 0#16 ∧ s.hstat = 0x00#8 ∧
  ResKind.code s.resKind = 0#3 ∧ s.resStatus = 0#8 ∧ s.resLen = 0#16 ∧ s.resFlags = 0#2 ∧
  (∀ i, Memory.read s.txbuf i = none) ∧ (∀ i, Memory.read s.rxbuf i = none) ∧
  s.build.configuration.toFixedParameters =
    { capBytes := 1024, capWords := 512, wTries := 8, wWc := 16, regPower := 0x00#8, regStatus := 0x02#8
      regCommand := 0x04#8, regDataLength := 0x06#8, regData0 := 0x08#8, oemBit := 0x40#8, moduleMask := 0x0F#8 } ∧
  s.build.configuration.toBuild = s.build ∧
  s.build.retryBudget = 10#8 ∧ s.build.writeLenMode = .lowByte ∧ s.build.pollDelay = 0 ∧ s.world.trace = [] ∧
  step s = .next s

/-! ### Encodings -/

/-- Words written out from the formats of 30_encoding.md, each in its slot (log entry 11): two of `HREQ` (R97), one each of `CMD`
(R93), `LEN` (R92), `DATAW` (R94) and `STATUSR` (R95), and the operand of `SWAP16` (43_payload_transfer.md R154), which has no
format of its own and is read high byte first (log entry 8). -/
def Obligations.SpecWordsDecode : Prop :=
  decode .request [0x00#8, 0xE0#8, 0xC4#8, 0x02#8, 0x00#8] = .ok (.readData 0xE0#8 0xC4#8 512#16) ∧
  decode .request [0x01#8, 0x02#8, 0x04#8, 0x00#8, 0x02#8] = .ok (.writeData 0x02#8 0x04#8 2#16) ∧
  decode (.command .vid) [0x00#8, 0x04#8, 0x03#8, 0x10#8] = .ok (.cmdVid 0x10#8) ∧
  decode .lenRd [0x00#8, 0x06#8, 0x01#8, 0x2C#8] = .ok (.lenRd 300#16) ∧
  decode .dataWr [0x00#8, 0x08#8, 0xAB#8, 0xCD#8] = .ok (.dataWr [0xAB#8, 0xCD#8]) ∧
  decode .statusRsp [0xFB#8, 0x05#8] = .ok (.statusRsp 0xFB#8 0x05#8) ∧
  decode .swap16 [0x12#8, 0x34#8] = .ok (.swap16 0x1234#16)

/-- Decode and encode agree, for every instruction of every row that its bytes determine: all but `WAIT_READY`, which has no
encoding, `ENC_CMD`, whose frame is not injective (30_encoding.md R104), `PACK_WRITE` on more bytes than it sends, and
`ENC_LEN_WR` under `LOW_BYTE` on a count whose high byte it drops (42_command_encoder.md R142). -/
def Obligations.DecodeOfEncodeIsTheInstruction : Prop :=
  ∀ (mode : WriteLenMode) (i : Instr) (slot : Slot), i.wellFormed mode = true → slotOf mode i = some slot →
    (∀ m cid op, i ≠ .encCmd m cid op) →
    (∀ d wc, i = .packWrite d wc → d.length = 2 * wc.toNat) →
    (∀ wc, i = .encLenWr wc → mode = .full16 ∨ wc.toNat < 256) →
    decode slot (encode mode i) = .ok i

/-- The other direction: whatever bytes a slot accepts, they are the encoding of the instruction read, which is well formed
and of that slot; but for the device's two bytes after a `PROBE`'s select frame (log entry 22). -/
def Obligations.EncodeOfDecodeIsTheBytes : Prop :=
  ∀ (mode : WriteLenMode) (slot : Slot) (bs : List Byte) (i : Instr),
    (∀ m', slot = .lenWr m' → m' = mode) → (∀ m', slot = .encLenWr m' → m' = mode) →
    decode slot bs = .ok i →
    i.wellFormed mode = true ∧ slotOf mode i = some slot ∧ (slot ≠ .probe → encode mode i = bs)

/-! ### Whole runs -/

/-- 10_state.md R57: the invariant holds after reset. -/
def Obligations.ResetMeetsTheInvariant : Prop := State.Inv State.reset

/-- 10_state.md R57: every step of the block, whatever the host does and the device answers, keeps the invariant. The spec
marks the invariant as its own derivation. -/
def Obligations.EveryStepKeepsTheInvariant : Prop :=
  ∀ (s t : State), State.Inv s → step s = .next t → State.Inv t

/-- 60_exceptions.md R200: no error locks the engine up: from a state of the invariant no step stops. The premise on a
primitive called on its own is the model's (log entry 8). -/
def Obligations.NoStepStopsTheMachine : Prop :=
  ∀ (s : State), State.Inv s → (∀ i, s.world.call = some i → i.wellFormed s.build.writeLenMode = true) →
    ∃ t, step s = .next t

/-- 00_scope.md R17; 44_engine_operations.md R178: with the budget 10 every running operation ends, after at most 48
transactions, whatever the device answers. -/
def Obligations.EveryOperationEndsWithin48Transactions : Prop :=
  ∀ (s : State), State.Inv s → s.phase ≠ .idle → s.world.host = [] → s.build.retryBudget = 10#8 →
    ∃ (k : Nat) (t : State), 1 ≤ k ∧ k ≤ 48 ∧ runSteps k s = .next t ∧
      t.phase = .idle ∧ t.busy = false ∧ t.done = true ∧
      t.world.trace.length = s.world.trace.length + k

/-- 41_ready_synchronizer.md R130, R132, R133: the sequencer's steps from the start of a probe are `WAIT_READY` with the tries
left, and then what follows its outcome; in at most `2 * (TRIES + 1)` transactions (R136). -/
def Obligations.SequencerWaitRefinesWaitReady : Prop :=
  ∀ (s : State), Phase.isWait s.phase = true → s.poll = .sel → s.world.host = [] →
    ∃ k, k ≤ 2 * (s.tries.toNat + 1) ∧
      runSteps k s =
        .next (State.afterWait (State.waitLoop s.tries.toNat s).1 (State.waitLoop s.tries.toNat s).2)

/-- 44_engine_operations.md R177, R180: a whole `READ_DATA` against a device that takes every write, is not ready for the
responses `w1` and `w2` and then ready, and returns the payload `p`: the exact trace and the result. -/
def Obligations.WholeReadDataDeliversThePayload : Prop :=
  ∀ (m : ModuleId) (c : Byte) (w : Half) (w1 w2 : List (Byte × Byte)) (r1 r2 : Byte × Byte) (p : List Byte) (s : State),
    s.phase = .idle → s.world.host = [] → s.hreq = some (requestWord 0#2 (ModuleId.code m) c w) →
    w.toNat ≤ 512 → p.length = 2 * w.toNat →
    w1.length ≤ s.build.retryBudget.toNat → w2.length ≤ s.build.retryBudget.toNat →
    (∀ r ∈ w1 ++ w2, readyBytes r = false) → readyBytes r1 = true → readyBytes r2 = true →
    s.world.writeAnswers =
      List.replicate (w1.length + 1) 2 ++ [4, 4] ++ List.replicate (w2.length + 1) 2 ++ [2] →
    s.world.readAnswers = probeAnswers (w1 ++ [r1]) ++ probeAnswers (w2 ++ [r2]) ++ [.delivered p] →
    ∃ t, runSteps (2 * (w1.length + 1) + 2 * (w2.length + 1) + 5) s = .next t ∧
      t.world.trace = s.world.trace ++ probeTrace (w1 ++ [r1]) ++
        [.wrote [0x00#8, 0x06#8, hi8 w, lo8 w] 4, .wrote [0x00#8, 0x04#8, moduleByte m, c] 4] ++
        probeTrace (w2 ++ [r2]) ++ [.wrote [0x00#8, 0x08#8] 2, .readBack p.length p.length p] ∧
      t.phase = .idle ∧ t.busy = false ∧ t.done = true ∧ t.resKind = .ok ∧
      t.resLen.toNat = 2 * w.toNat ∧ t.resStatus = 0#8 ∧ t.resFlags = 0#2 ∧
      t.stat = decodeStatusBytes r2.1 r2.2 ∧ t.sv = true ∧ t.sync = .ready ∧ t.txbuf = s.txbuf ∧
      t.rOp = 0#2 ∧ t.rModule = ModuleId.code m ∧ t.rCmdid = c ∧ t.rWc = w ∧
      (∀ i, i < p.length → Memory.read t.rxbuf i = p[i]?) ∧
      (∀ i, p.length ≤ i → Memory.read t.rxbuf i = Memory.read s.rxbuf i)

/-- 44_engine_operations.md R179, R180: a whole `WRITE_DATA` against a device that takes every write, is not ready for the
responses `w1` and `w2` and then ready: payload, length, command in that order, and the last code as the result, in either
mode of `WRITE_LEN_MODE`. -/
def Obligations.WholeWriteDataSendsPayloadLengthCommand : Prop :=
  ∀ (m : ModuleId) (c : Byte) (w : Half) (w1 w2 : List (Byte × Byte)) (r1 r2 : Byte × Byte) (p : List Byte) (s : State),
    s.phase = .idle → s.world.host = [] → s.hreq = some (requestWord 1#2 (ModuleId.code m) c w) →
    w.toNat ≤ 512 → p.length = 2 * w.toNat →
    (∀ i b, p[i]? = some b → Memory.read s.txbuf i = some b) →
    w1.length ≤ s.build.retryBudget.toNat → w2.length ≤ s.build.retryBudget.toNat →
    (∀ r ∈ w1 ++ w2, readyBytes r = false) → readyBytes r1 = true → readyBytes r2 = true →
    s.world.writeAnswers =
      List.replicate (w1.length + 1) 2 ++ [2 * (w.toNat : Int) + 2, 4, 4] ++ List.replicate (w2.length + 1) 2 →
    s.world.readAnswers = probeAnswers (w1 ++ [r1]) ++ probeAnswers (w2 ++ [r2]) →
    ∃ t, runSteps (2 * (w1.length + 1) + 2 * (w2.length + 1) + 4) s = .next t ∧
      t.world.trace = s.world.trace ++ probeTrace (w1 ++ [r1]) ++
        [.wrote ([0x00#8, 0x08#8] ++ p) (2 * (w.toNat : Int) + 2),
         .wrote [0x00#8, 0x06#8, hi8 (writeLenField s.build.writeLenMode w), lo8 w] 4,
         .wrote [0x00#8, 0x04#8, moduleByte m, c + 1#8] 4] ++
        probeTrace (w2 ++ [r2]) ∧
      t.phase = .idle ∧ t.busy = false ∧ t.done = true ∧ t.resKind = .ok ∧
      t.resStatus = r2.1 ∧ t.resLen = 0#16 ∧ t.resFlags = 0#2 ∧
      t.stat = decodeStatusBytes r2.1 r2.2 ∧ t.sv = true ∧ t.sync = .ready ∧
      t.rOp = 1#2 ∧ t.rModule = ModuleId.code m ∧ t.rCmdid = c ∧ t.rWc = w ∧
      t.txbuf = s.txbuf ∧ t.rxbuf = s.rxbuf

/-- 70_reset_and_hazards.md R221: the reset comes while the access `a` is held. The operation is dropped with no result and no
transaction, `a` is released, and the next step serves it on the block just come up: a write of `TXBUF` or of `HREQ` takes
effect, a read returns the value after reset. That the reset stands behind `a` in one list is log entry 16. -/
def Obligations.ResetReleasesAHeldAccess : Prop :=
  ∀ (a : HostAct) (more : List HostAct) (s : State), s.busy = true → s.hreq = none →
    a ∉ [HostAct.pass, .reset, .readHstat] → s.world.host = a :: .reset :: more →
    ∃ t, step s = .next t ∧ t.phase = .idle ∧ t.busy = false ∧ t.done = false ∧ t.hreq = none ∧
      t.world.trace = s.world.trace ∧ t.world.hostLog = s.world.hostLog ∧ t.world.host = a :: more ∧
      (∀ i b, a = .writeTx i b → ∃ u, step t = .next u ∧ Memory.read u.txbuf i.val = some b ∧ u.world.host = more) ∧
      (∀ q, a = .writeHreq q → step t = engineStep { t with hreq := some q, world := { t.world with host := more } }) ∧
      (a = .readKind →
        step t = .next { t with world := { t.world with host := more, hostLog := t.world.hostLog ++ [.kind 0#3] } })
end

