-- ==== Sys2Proof/Laws/Operands.lean ====
section
/-! SUPPORT. The small laws of the byte order, the module values and the frames. -/

namespace Sys2Proof.Machine

@[simp] theorem capBytes_eq : Config.capBytes = 1024 := rfl
@[simp] theorem capWords_eq : Config.capWords = 512 := rfl
@[simp] theorem regStatus_eq : Config.regStatus = 0x02#8 := rfl
@[simp] theorem regCommand_eq : Config.regCommand = 0x04#8 := rfl
@[simp] theorem regDataLength_eq : Config.regDataLength = 0x06#8 := rfl
@[simp] theorem regData0_eq : Config.regData0 = 0x08#8 := rfl
@[simp] theorem oemBit_eq : Config.oemBit = 0x40#8 := rfl
@[simp] theorem moduleMask_eq : Config.moduleMask = 0x0F#8 := rfl

/-- 00_scope.md R6, `W_WC`: a word count is a number of that many bits. -/
theorem half_width : Half = BitVec Config.fixed.wWc := rfl

/-- 00_scope.md R6, `W_TRIES`: the counter and the retry budget are numbers of that many bits. -/
theorem tries_width : Byte = BitVec Config.fixed.wTries := rfl

/-- Every build's configuration is one that 00_scope.md R6 admits. -/
theorem configuration_wf (b : Build) : b.configuration.wf = true := by
  have hb : b.retryBudget.toNat < 256 := b.retryBudget.isLt
  simp only [Configuration.wf, Build.configuration]
  exact Bool.and_eq_true_iff.mpr ⟨Bool.and_eq_true_iff.mpr ⟨rfl, decide_eq_true hb⟩, rfl⟩

theorem hi8_toNat (w : Half) : (hi8 w).toNat = w.toNat / 256 := by
  have := w.isLt
  simp [hi8]; omega

theorem lo8_toNat (w : Half) : (lo8 w).toNat = w.toNat % 256 := by simp [lo8]

theorem be16_toNat (h l : Byte) : (be16 h l).toNat = h.toNat * 256 + l.toNat := by
  have := h.isLt; have := l.isLt
  simp [be16]; omega

@[simp] theorem be16_hi8_lo8 (w : Half) : be16 (hi8 w) (lo8 w) = w := by
  apply BitVec.eq_of_toNat_eq
  rw [be16_toNat, hi8_toNat, lo8_toNat]; omega

@[simp] theorem hi8_be16 (h l : Byte) : hi8 (be16 h l) = h := by
  apply BitVec.eq_of_toNat_eq
  have := l.isLt
  rw [hi8_toNat, be16_toNat]; omega

@[simp] theorem lo8_be16 (h l : Byte) : lo8 (be16 h l) = l := by
  apply BitVec.eq_of_toNat_eq
  have := l.isLt
  rw [lo8_toNat, be16_toNat]; omega

/-- A byte is the value of a module exactly when it is the value of one. -/
theorem ModuleId.ofByte_eq_some {b : Byte} {m : ModuleId} : ModuleId.ofByte b = some m ↔ b = ModuleId.code m := by
  constructor
  · intro h
    unfold ModuleId.ofByte at h
    split at h
    · cases h; assumption
    · split at h
      · cases h; assumption
      · split at h
        · cases h; assumption
        · split at h
          · cases h; assumption
          · split at h
            · cases h; assumption
            · cases h
  · rintro rfl; cases m <;> rfl

@[simp] theorem ModuleId.ofByte_code (m : ModuleId) : ModuleId.ofByte (ModuleId.code m) = some m :=
  ModuleId.ofByte_eq_some.mpr rfl

/-- The legal module bytes, listed. -/
theorem ModuleId.ofByte_ne_none {b : Byte} :
    ModuleId.ofByte b ≠ none ↔ b ∈ [0x01#8, 0x02#8, 0x03#8, 0x80#8, 0xE0#8] := by
  constructor
  · intro h
    obtain ⟨m, hm⟩ := Option.ne_none_iff_exists'.mp h
    rw [ModuleId.ofByte_eq_some] at hm
    subst hm; cases m <;> decide
  · intro h
    simp only [List.mem_cons, List.not_mem_nil, or_false] at h
    obtain rfl | rfl | rfl | rfl | rfl := h <;> decide

@[simp] theorem statusSelFrame_length : statusSelFrame.length = 2 := rfl
@[simp] theorem dataSelFrame_length : dataSelFrame.length = 2 := rfl
@[simp] theorem commandFrame_length (mb k : Byte) : (commandFrame mb k).length = 4 := rfl
@[simp] theorem lengthFrame_length (len : Half) : (lengthFrame len).length = 4 := rfl
@[simp] theorem payloadFrame_length (p : List Byte) : (payloadFrame p).length = p.length + 2 := by
  simp [payloadFrame]

theorem payloadOk_iff {p : List Byte} : payloadOk p = true ↔ p.length % 2 = 0 ∧ p.length ≤ 1024 := by
  simp [payloadOk]

end Sys2Proof.Machine
end

