-- ==== Sys2Proof/Laws/Decode.lean ====
section
/-! SUPPORT. What the decoder gives on the bytes the sequencer itself makes, and the parts of a request word. -/

namespace Sys2Proof

open Machine

/-! ### The request word -/

theorem requestWord_toNat (op : BitVec 2) (m c : Byte) (w : Half) :
    (requestWord op m c w).toNat = op.toNat * 4294967296 + m.toNat * 16777216 + c.toNat * 65536 + w.toNat := by
  have := op.isLt; have := m.isLt; have := c.isLt; have := w.isLt
  simp [requestWord]; omega

/-- The five bytes of a request, from its fields. -/
theorem requestBytes_requestWord (op : BitVec 2) (m c : Byte) (w : Half) :
    requestBytes (requestWord op m c w) = [BitVec.ofNat 8 op.toNat, m, c, hi8 w, lo8 w] := by
  have := op.isLt; have := m.isLt; have := c.isLt; have := w.isLt
  simp only [requestBytes, requestWord_toNat, List.cons.injEq, and_true]
  refine ⟨?_, ?_, ?_, ?_, ?_⟩ <;> apply BitVec.eq_of_toNat_eq <;>
    simp only [BitVec.toNat_ofNat, hi8_toNat, lo8_toNat] <;> omega

/-- A request word of the given operation decodes to its row. -/
theorem decode_requestWord (op : BitVec 2) (m c : Byte) (w : Half) :
    decode .request (requestBytes (requestWord op m c w)) = .ok (
      if op = 0#2 then .readData m c w else if op = 1#2 then .writeData m c w
      else if op = 2#2 then .hreqRun m c w else .hreqOp3 m c w) := by
  rw [requestBytes_requestWord]
  have : op = 0#2 ∨ op = 1#2 ∨ op = 2#2 ∨ op = 3#2 := by revert op; decide
  obtain rfl | rfl | rfl | rfl := this <;> simp [decode, decodeRequest]

/-! ### The frames -/

@[simp] theorem decode_statusSelFrame : decode .statusSel statusSelFrame = .ok .statusSel := rfl

@[simp] theorem decode_dataSelFrame : decode .dataSel dataSelFrame = .ok .dataSel := rfl

@[simp] theorem decode_lenRd (len : Half) : decode .lenRd (lengthFrame len) = .ok (.lenRd len) := by
  simp [decode, decodeAddressed, decodeTwo, lengthFrame]

@[simp] theorem decode_command (m : ModuleId) (k : Byte) :
    decode (.command m) (commandFrame (moduleByte m) k) = .ok (commandInstr m k) := by
  simp [decode, decodeAddressed, decodeTwo, commandFrame]

/-- The write form's length field is one the mode admits. -/
theorem writeLenField_wf (mode : WriteLenMode) (wc : Half) :
    Instr.wellFormed mode (.lenWr (writeLenField mode wc)) = true := by
  cases mode
  · have := wc.isLt
    simp [Instr.wellFormed, writeLenField, be16_toNat, lo8_toNat]; omega
  · rfl

/-- A length field the mode admits survives the write form. -/
theorem decode_lenWr {mode : WriteLenMode} {len : Half} (h : Instr.wellFormed mode (.lenWr len) = true) :
    decode (.lenWr mode) (lengthFrame len) = .ok (.lenWr len) := by
  cases mode
  · have hz : hi8 len = 0x00#8 := by
      simp [Instr.wellFormed] at h
      apply BitVec.eq_of_toNat_eq
      rw [hi8_toNat]; simp; omega
    simp only [decode, decodeAddressed, lengthFrame, decodeTwo, decodeWriteLen, hz]
    rw [← hz]; simp
  · simp [decode, decodeAddressed, lengthFrame, decodeTwo, decodeWriteLen]

theorem decode_payloadFrame {p : List Byte} (h : payloadOk p = true) :
    decode .dataWr (payloadFrame p) = .ok (.dataWr p) := by
  simp [decode, decodeAddressed, payloadFrame, decodePayload, h]

theorem decode_dataRsp {p : List Byte} (h : payloadOk p = true) : decode .dataRsp p = .ok (.dataRsp p) := by
  simp [decode, decodePayload, h]

@[simp] theorem decode_statusRsp (b0 b1 : Byte) : decode .statusRsp [b0, b1] = .ok (.statusRsp b0 b1) := rfl

end Sys2Proof
end

