-- ==== Sys2Proof/Laws/Memory.lean ====
section
/-! SUPPORT. The laws of the buffers: a read after a write, and that every operation keeps the canonical form. -/

namespace Sys2Proof.Machine

@[simp] theorem Memory.read_nil (a : Nat) : Memory.read [] a = none := rfl

@[simp] theorem Memory.wf_nil : Memory.wf [] = true := rfl

/-- A read after a write to the same index gives the byte written. -/
@[simp] theorem Memory.read_write_same (m : Memory) (a : Nat) (b : Byte) :
    Memory.read (Memory.write m a b) a = some b := by
  induction m with
  | nil => simp [Memory.write, Memory.read]
  | cons c rest ih =>
    obtain ⟨k, v⟩ := c
    unfold Memory.write
    split
    · simp [Memory.read]
    · split
      · simp [Memory.read]
      · next h => rw [Memory.read, if_neg (fun e => h e.symm)]; exact ih

/-- A write leaves every other index alone. -/
theorem Memory.read_write_other (m : Memory) {a a' : Nat} (b : Byte) (h : a' ≠ a) :
    Memory.read (Memory.write m a b) a' = Memory.read m a' := by
  induction m with
  | nil => simp [Memory.write, Memory.read, h.symm]
  | cons c rest ih =>
    obtain ⟨k, v⟩ := c
    unfold Memory.write
    split
    · simp [Memory.read, h.symm]
    · split
      · next e => subst e; simp [Memory.read, h.symm]
      · simp [Memory.read, ih]

theorem Memory.above_write {m : Memory} {a k : Nat} (b : Byte) (hk : k < a) (h : Memory.above k m = true) :
    Memory.above k (Memory.write m a b) = true := by
  induction m with
  | nil => simp [Memory.write, Memory.above, hk]
  | cons c rest ih =>
    obtain ⟨k', v⟩ := c
    simp only [Memory.above, List.all_cons, Bool.and_eq_true, decide_eq_true_eq] at h ih ⊢
    unfold Memory.write
    split
    · simp [hk, h.1]; simpa using h.2
    · split
      · simp [hk]; simpa using h.2
      · simp only [List.all_cons, Bool.and_eq_true, decide_eq_true_eq]; exact ⟨h.1, ih h.2⟩

theorem Memory.above_mono {m : Memory} {a k : Nat} (hk : a < k) (h : Memory.above k m = true) :
    Memory.above a m = true := by
  simp only [Memory.above, List.all_eq_true, decide_eq_true_eq] at h ⊢
  intro c hc
  exact Nat.lt_trans hk (h c hc)

/-- A write below the capacity keeps the canonical form. -/
theorem Memory.wf_write {m : Memory} {a : Nat} (b : Byte) (ha : a < Config.capBytes) (h : Memory.wf m = true) :
    Memory.wf (Memory.write m a b) = true := by
  induction m with
  | nil => simp [Memory.write, Memory.wf, Memory.above, ha]
  | cons c rest ih =>
    obtain ⟨k, v⟩ := c
    have hw := h
    simp only [Memory.wf, Bool.and_eq_true, decide_eq_true_eq] at h
    obtain ⟨⟨hk, hab⟩, hr⟩ := h
    unfold Memory.write
    split
    · next hlt =>
      simp only [Memory.wf, Bool.and_eq_true, decide_eq_true_eq]
      refine ⟨⟨ha, ?_⟩, ⟨hk, hab⟩, hr⟩
      have := Memory.above_mono hlt hab
      simp only [Memory.above, List.all_cons, Bool.and_eq_true, decide_eq_true_eq] at this ⊢
      exact ⟨hlt, this⟩
    · split
      · next e => subst e; simp only [Memory.wf, Bool.and_eq_true, decide_eq_true_eq]; exact ⟨⟨ha, hab⟩, hr⟩
      · next hn hne =>
        simp only [Memory.wf, Bool.and_eq_true, decide_eq_true_eq]
        exact ⟨⟨hk, Memory.above_write b (by omega) hab⟩, ih hr⟩

/-- A run written within the capacity keeps the canonical form. -/
theorem Memory.wf_writeRun {m : Memory} {a : Nat} (bs : List Byte) (ha : a + bs.length ≤ Config.capBytes)
    (h : Memory.wf m = true) : Memory.wf (Memory.writeRun m a bs) = true := by
  induction bs generalizing m a with
  | nil => exact h
  | cons b rest ih =>
    simp only [List.length_cons] at ha
    exact ih (by omega) (Memory.wf_write b (by omega) h)

/-- What a run leaves at every index: its own bytes inside, the old contents outside. -/
theorem Memory.read_writeRun (m : Memory) (a i : Nat) (bs : List Byte) :
    Memory.read (Memory.writeRun m a bs) i =
      if a ≤ i ∧ i < a + bs.length then bs[i - a]? else Memory.read m i := by
  induction bs generalizing m a with
  | nil => simp [Memory.writeRun]
  | cons b rest ih =>
    rw [Memory.writeRun, ih]
    by_cases h1 : a + 1 ≤ i ∧ i < a + 1 + rest.length
    · rw [if_pos h1, if_pos (by simp only [List.length_cons]; omega)]
      obtain ⟨d, hd⟩ : ∃ d, i - a = d + 1 := ⟨i - a - 1, by omega⟩
      rw [hd, List.getElem?_cons_succ]
      congr 1; omega
    · rw [if_neg h1]
      by_cases h2 : i = a
      · subst h2; simp
      · rw [Memory.read_write_other m b h2, if_neg (by simp only [List.length_cons]; omega)]

end Sys2Proof.Machine
end

