-- ==== Sys2Proof/Laws/State.lean ====
section
/-! SUPPORT. What each update of the state leaves in each field, true by rfl, so that no later proof unfolds a record
update. -/

namespace Sys2Proof.Machine

variable (s : State)

/-! `State.afterWrite` -/

@[simp] theorem afterWrite_hreq (frame : List Byte) : (s.afterWrite frame).hreq = s.hreq := rfl
@[simp] theorem afterWrite_rOp (frame : List Byte) : (s.afterWrite frame).rOp = s.rOp := rfl
@[simp] theorem afterWrite_rModule (frame : List Byte) : (s.afterWrite frame).rModule = s.rModule := rfl
@[simp] theorem afterWrite_rCmdid (frame : List Byte) : (s.afterWrite frame).rCmdid = s.rCmdid := rfl
@[simp] theorem afterWrite_rWc (frame : List Byte) : (s.afterWrite frame).rWc = s.rWc := rfl
@[simp] theorem afterWrite_txbuf (frame : List Byte) : (s.afterWrite frame).txbuf = s.txbuf := rfl
@[simp] theorem afterWrite_rxbuf (frame : List Byte) : (s.afterWrite frame).rxbuf = s.rxbuf := rfl
@[simp] theorem afterWrite_stat (frame : List Byte) : (s.afterWrite frame).stat = s.stat := rfl
@[simp] theorem afterWrite_phase (frame : List Byte) : (s.afterWrite frame).phase = s.phase := rfl
@[simp] theorem afterWrite_poll (frame : List Byte) : (s.afterWrite frame).poll = s.poll := rfl
@[simp] theorem afterWrite_sync (frame : List Byte) : (s.afterWrite frame).sync = s.sync := rfl
@[simp] theorem afterWrite_tries (frame : List Byte) : (s.afterWrite frame).tries = s.tries := rfl
@[simp] theorem afterWrite_busy (frame : List Byte) : (s.afterWrite frame).busy = s.busy := rfl
@[simp] theorem afterWrite_done (frame : List Byte) : (s.afterWrite frame).done = s.done := rfl
@[simp] theorem afterWrite_sv (frame : List Byte) : (s.afterWrite frame).sv = s.sv := rfl
@[simp] theorem afterWrite_resKind (frame : List Byte) : (s.afterWrite frame).resKind = s.resKind := rfl
@[simp] theorem afterWrite_resStatus (frame : List Byte) : (s.afterWrite frame).resStatus = s.resStatus := rfl
@[simp] theorem afterWrite_resLen (frame : List Byte) : (s.afterWrite frame).resLen = s.resLen := rfl
@[simp] theorem afterWrite_resFlags (frame : List Byte) : (s.afterWrite frame).resFlags = s.resFlags := rfl
@[simp] theorem afterWrite_build (frame : List Byte) : (s.afterWrite frame).build = s.build := rfl
@[simp] theorem afterWrite_world_host (frame : List Byte) : (s.afterWrite frame).world.host = s.world.host := rfl
@[simp] theorem afterWrite_world_hostLog (frame : List Byte) : (s.afterWrite frame).world.hostLog = s.world.hostLog := rfl
@[simp] theorem afterWrite_world_call (frame : List Byte) : (s.afterWrite frame).world.call = s.world.call := rfl
@[simp] theorem afterWrite_world_unitOut (frame : List Byte) : (s.afterWrite frame).world.unitOut = s.world.unitOut := rfl
@[simp] theorem afterWrite_world_writeAnswers (frame : List Byte) : (s.afterWrite frame).world.writeAnswers = s.world.writeAnswers.tail := rfl
@[simp] theorem afterWrite_world_readAnswers (frame : List Byte) : (s.afterWrite frame).world.readAnswers = s.world.readAnswers := rfl
@[simp] theorem afterWrite_world_trace (frame : List Byte) : (s.afterWrite frame).world.trace = s.world.trace ++ [.wrote frame s.nextCount] := rfl
@[simp] theorem afterWrite_world_tick (frame : List Byte) : (s.afterWrite frame).world.tick = s.world.tick + 1 := rfl

/-! `State.afterRead` -/

@[simp] theorem afterRead_hreq (n : Nat) : (s.afterRead n).hreq = s.hreq := rfl
@[simp] theorem afterRead_rOp (n : Nat) : (s.afterRead n).rOp = s.rOp := rfl
@[simp] theorem afterRead_rModule (n : Nat) : (s.afterRead n).rModule = s.rModule := rfl
@[simp] theorem afterRead_rCmdid (n : Nat) : (s.afterRead n).rCmdid = s.rCmdid := rfl
@[simp] theorem afterRead_rWc (n : Nat) : (s.afterRead n).rWc = s.rWc := rfl
@[simp] theorem afterRead_txbuf (n : Nat) : (s.afterRead n).txbuf = s.txbuf := rfl
@[simp] theorem afterRead_rxbuf (n : Nat) : (s.afterRead n).rxbuf = s.rxbuf := rfl
@[simp] theorem afterRead_stat (n : Nat) : (s.afterRead n).stat = s.stat := rfl
@[simp] theorem afterRead_phase (n : Nat) : (s.afterRead n).phase = s.phase := rfl
@[simp] theorem afterRead_poll (n : Nat) : (s.afterRead n).poll = s.poll := rfl
@[simp] theorem afterRead_sync (n : Nat) : (s.afterRead n).sync = s.sync := rfl
@[simp] theorem afterRead_tries (n : Nat) : (s.afterRead n).tries = s.tries := rfl
@[simp] theorem afterRead_busy (n : Nat) : (s.afterRead n).busy = s.busy := rfl
@[simp] theorem afterRead_done (n : Nat) : (s.afterRead n).done = s.done := rfl
@[simp] theorem afterRead_sv (n : Nat) : (s.afterRead n).sv = s.sv := rfl
@[simp] theorem afterRead_resKind (n : Nat) : (s.afterRead n).resKind = s.resKind := rfl
@[simp] theorem afterRead_resStatus (n : Nat) : (s.afterRead n).resStatus = s.resStatus := rfl
@[simp] theorem afterRead_resLen (n : Nat) : (s.afterRead n).resLen = s.resLen := rfl
@[simp] theorem afterRead_resFlags (n : Nat) : (s.afterRead n).resFlags = s.resFlags := rfl
@[simp] theorem afterRead_build (n : Nat) : (s.afterRead n).build = s.build := rfl
@[simp] theorem afterRead_world_host (n : Nat) : (s.afterRead n).world.host = s.world.host := rfl
@[simp] theorem afterRead_world_hostLog (n : Nat) : (s.afterRead n).world.hostLog = s.world.hostLog := rfl
@[simp] theorem afterRead_world_call (n : Nat) : (s.afterRead n).world.call = s.world.call := rfl
@[simp] theorem afterRead_world_unitOut (n : Nat) : (s.afterRead n).world.unitOut = s.world.unitOut := rfl
@[simp] theorem afterRead_world_writeAnswers (n : Nat) : (s.afterRead n).world.writeAnswers = s.world.writeAnswers := rfl
@[simp] theorem afterRead_world_readAnswers (n : Nat) : (s.afterRead n).world.readAnswers = s.world.readAnswers.tail := rfl
@[simp] theorem afterRead_world_trace (n : Nat) : (s.afterRead n).world.trace = s.world.trace ++ [.readBack n (ReadAnswer.count s.nextRead) (ReadAnswer.bytes s.nextRead)] := rfl
@[simp] theorem afterRead_world_tick (n : Nat) : (s.afterRead n).world.tick = s.world.tick + 1 := rfl

/-! `State.complete` -/

@[simp] theorem complete_hreq : (s.complete).hreq = s.hreq := rfl
@[simp] theorem complete_rOp : (s.complete).rOp = s.rOp := rfl
@[simp] theorem complete_rModule : (s.complete).rModule = s.rModule := rfl
@[simp] theorem complete_rCmdid : (s.complete).rCmdid = s.rCmdid := rfl
@[simp] theorem complete_rWc : (s.complete).rWc = s.rWc := rfl
@[simp] theorem complete_txbuf : (s.complete).txbuf = s.txbuf := rfl
@[simp] theorem complete_rxbuf : (s.complete).rxbuf = s.rxbuf := rfl
@[simp] theorem complete_stat : (s.complete).stat = s.stat := rfl
@[simp] theorem complete_phase : (s.complete).phase = .idle := rfl
@[simp] theorem complete_poll : (s.complete).poll = s.poll := rfl
@[simp] theorem complete_sync : (s.complete).sync = s.sync := rfl
@[simp] theorem complete_tries : (s.complete).tries = s.tries := rfl
@[simp] theorem complete_busy : (s.complete).busy = false := rfl
@[simp] theorem complete_done : (s.complete).done = true := rfl
@[simp] theorem complete_sv : (s.complete).sv = s.sv := rfl
@[simp] theorem complete_resKind : (s.complete).resKind = .ok := rfl
@[simp] theorem complete_resStatus : (s.complete).resStatus = s.resStatus := rfl
@[simp] theorem complete_resLen : (s.complete).resLen = s.resLen := rfl
@[simp] theorem complete_resFlags : (s.complete).resFlags = s.resFlags := rfl
@[simp] theorem complete_build : (s.complete).build = s.build := rfl
@[simp] theorem complete_world : (s.complete).world = s.world := rfl

/-! `State.enterWait` -/

@[simp] theorem enterWait_hreq (p : Phase) : (s.enterWait p).hreq = s.hreq := rfl
@[simp] theorem enterWait_rOp (p : Phase) : (s.enterWait p).rOp = s.rOp := rfl
@[simp] theorem enterWait_rModule (p : Phase) : (s.enterWait p).rModule = s.rModule := rfl
@[simp] theorem enterWait_rCmdid (p : Phase) : (s.enterWait p).rCmdid = s.rCmdid := rfl
@[simp] theorem enterWait_rWc (p : Phase) : (s.enterWait p).rWc = s.rWc := rfl
@[simp] theorem enterWait_txbuf (p : Phase) : (s.enterWait p).txbuf = s.txbuf := rfl
@[simp] theorem enterWait_rxbuf (p : Phase) : (s.enterWait p).rxbuf = s.rxbuf := rfl
@[simp] theorem enterWait_stat (p : Phase) : (s.enterWait p).stat = s.stat := rfl
@[simp] theorem enterWait_phase (p : Phase) : (s.enterWait p).phase = p := rfl
@[simp] theorem enterWait_poll (p : Phase) : (s.enterWait p).poll = .sel := rfl
@[simp] theorem enterWait_sync (p : Phase) : (s.enterWait p).sync = .polling := rfl
@[simp] theorem enterWait_tries (p : Phase) : (s.enterWait p).tries = s.build.retryBudget := rfl
@[simp] theorem enterWait_busy (p : Phase) : (s.enterWait p).busy = s.busy := rfl
@[simp] theorem enterWait_done (p : Phase) : (s.enterWait p).done = s.done := rfl
@[simp] theorem enterWait_sv (p : Phase) : (s.enterWait p).sv = s.sv := rfl
@[simp] theorem enterWait_resKind (p : Phase) : (s.enterWait p).resKind = s.resKind := rfl
@[simp] theorem enterWait_resStatus (p : Phase) : (s.enterWait p).resStatus = s.resStatus := rfl
@[simp] theorem enterWait_resLen (p : Phase) : (s.enterWait p).resLen = s.resLen := rfl
@[simp] theorem enterWait_resFlags (p : Phase) : (s.enterWait p).resFlags = s.resFlags := rfl
@[simp] theorem enterWait_build (p : Phase) : (s.enterWait p).build = s.build := rfl
@[simp] theorem enterWait_world (p : Phase) : (s.enterWait p).world = s.world := rfl

/-! `State.latchStat` -/

@[simp] theorem latchStat_hreq (st : DeviceStatus) : (s.latchStat st).hreq = s.hreq := rfl
@[simp] theorem latchStat_rOp (st : DeviceStatus) : (s.latchStat st).rOp = s.rOp := rfl
@[simp] theorem latchStat_rModule (st : DeviceStatus) : (s.latchStat st).rModule = s.rModule := rfl
@[simp] theorem latchStat_rCmdid (st : DeviceStatus) : (s.latchStat st).rCmdid = s.rCmdid := rfl
@[simp] theorem latchStat_rWc (st : DeviceStatus) : (s.latchStat st).rWc = s.rWc := rfl
@[simp] theorem latchStat_txbuf (st : DeviceStatus) : (s.latchStat st).txbuf = s.txbuf := rfl
@[simp] theorem latchStat_rxbuf (st : DeviceStatus) : (s.latchStat st).rxbuf = s.rxbuf := rfl
@[simp] theorem latchStat_stat (st : DeviceStatus) : (s.latchStat st).stat = st := rfl
@[simp] theorem latchStat_phase (st : DeviceStatus) : (s.latchStat st).phase = s.phase := rfl
@[simp] theorem latchStat_poll (st : DeviceStatus) : (s.latchStat st).poll = s.poll := rfl
@[simp] theorem latchStat_sync (st : DeviceStatus) : (s.latchStat st).sync = s.sync := rfl
@[simp] theorem latchStat_tries (st : DeviceStatus) : (s.latchStat st).tries = s.tries := rfl
@[simp] theorem latchStat_busy (st : DeviceStatus) : (s.latchStat st).busy = s.busy := rfl
@[simp] theorem latchStat_done (st : DeviceStatus) : (s.latchStat st).done = s.done := rfl
@[simp] theorem latchStat_sv (st : DeviceStatus) : (s.latchStat st).sv = true := rfl
@[simp] theorem latchStat_resKind (st : DeviceStatus) : (s.latchStat st).resKind = s.resKind := rfl
@[simp] theorem latchStat_resStatus (st : DeviceStatus) : (s.latchStat st).resStatus = s.resStatus := rfl
@[simp] theorem latchStat_resLen (st : DeviceStatus) : (s.latchStat st).resLen = s.resLen := rfl
@[simp] theorem latchStat_resFlags (st : DeviceStatus) : (s.latchStat st).resFlags = s.resFlags := rfl
@[simp] theorem latchStat_build (st : DeviceStatus) : (s.latchStat st).build = s.build := rfl
@[simp] theorem latchStat_world (st : DeviceStatus) : (s.latchStat st).world = s.world := rfl

/-! `State.clearResults` -/

@[simp] theorem clearResults_hreq : (s.clearResults).hreq = none := rfl
@[simp] theorem clearResults_rOp : (s.clearResults).rOp = s.rOp := rfl
@[simp] theorem clearResults_rModule : (s.clearResults).rModule = s.rModule := rfl
@[simp] theorem clearResults_rCmdid : (s.clearResults).rCmdid = s.rCmdid := rfl
@[simp] theorem clearResults_rWc : (s.clearResults).rWc = s.rWc := rfl
@[simp] theorem clearResults_txbuf : (s.clearResults).txbuf = s.txbuf := rfl
@[simp] theorem clearResults_rxbuf : (s.clearResults).rxbuf = s.rxbuf := rfl
@[simp] theorem clearResults_stat : (s.clearResults).stat = s.stat := rfl
@[simp] theorem clearResults_phase : (s.clearResults).phase = s.phase := rfl
@[simp] theorem clearResults_poll : (s.clearResults).poll = s.poll := rfl
@[simp] theorem clearResults_sync : (s.clearResults).sync = s.sync := rfl
@[simp] theorem clearResults_tries : (s.clearResults).tries = s.tries := rfl
@[simp] theorem clearResults_busy : (s.clearResults).busy = s.busy := rfl
@[simp] theorem clearResults_done : (s.clearResults).done = s.done := rfl
@[simp] theorem clearResults_sv : (s.clearResults).sv = s.sv := rfl
@[simp] theorem clearResults_resKind : (s.clearResults).resKind = s.resKind := rfl
@[simp] theorem clearResults_resStatus : (s.clearResults).resStatus = 0#8 := rfl
@[simp] theorem clearResults_resLen : (s.clearResults).resLen = 0#16 := rfl
@[simp] theorem clearResults_resFlags : (s.clearResults).resFlags = 0#2 := rfl
@[simp] theorem clearResults_build : (s.clearResults).build = s.build := rfl
@[simp] theorem clearResults_world : (s.clearResults).world = s.world := rfl

/-! `State.giveResult` -/

@[simp] theorem giveResult_hreq (u : UnitOut) : (s.giveResult u).hreq = s.hreq := rfl
@[simp] theorem giveResult_rOp (u : UnitOut) : (s.giveResult u).rOp = s.rOp := rfl
@[simp] theorem giveResult_rModule (u : UnitOut) : (s.giveResult u).rModule = s.rModule := rfl
@[simp] theorem giveResult_rCmdid (u : UnitOut) : (s.giveResult u).rCmdid = s.rCmdid := rfl
@[simp] theorem giveResult_rWc (u : UnitOut) : (s.giveResult u).rWc = s.rWc := rfl
@[simp] theorem giveResult_txbuf (u : UnitOut) : (s.giveResult u).txbuf = s.txbuf := rfl
@[simp] theorem giveResult_rxbuf (u : UnitOut) : (s.giveResult u).rxbuf = s.rxbuf := rfl
@[simp] theorem giveResult_stat (u : UnitOut) : (s.giveResult u).stat = s.stat := rfl
@[simp] theorem giveResult_phase (u : UnitOut) : (s.giveResult u).phase = s.phase := rfl
@[simp] theorem giveResult_poll (u : UnitOut) : (s.giveResult u).poll = s.poll := rfl
@[simp] theorem giveResult_sync (u : UnitOut) : (s.giveResult u).sync = s.sync := rfl
@[simp] theorem giveResult_tries (u : UnitOut) : (s.giveResult u).tries = s.tries := rfl
@[simp] theorem giveResult_busy (u : UnitOut) : (s.giveResult u).busy = s.busy := rfl
@[simp] theorem giveResult_done (u : UnitOut) : (s.giveResult u).done = s.done := rfl
@[simp] theorem giveResult_sv (u : UnitOut) : (s.giveResult u).sv = s.sv := rfl
@[simp] theorem giveResult_resKind (u : UnitOut) : (s.giveResult u).resKind = s.resKind := rfl
@[simp] theorem giveResult_resStatus (u : UnitOut) : (s.giveResult u).resStatus = s.resStatus := rfl
@[simp] theorem giveResult_resLen (u : UnitOut) : (s.giveResult u).resLen = s.resLen := rfl
@[simp] theorem giveResult_resFlags (u : UnitOut) : (s.giveResult u).resFlags = s.resFlags := rfl
@[simp] theorem giveResult_build (u : UnitOut) : (s.giveResult u).build = s.build := rfl
@[simp] theorem giveResult_world_host (u : UnitOut) : (s.giveResult u).world.host = s.world.host := rfl
@[simp] theorem giveResult_world_hostLog (u : UnitOut) : (s.giveResult u).world.hostLog = s.world.hostLog := rfl
@[simp] theorem giveResult_world_call (u : UnitOut) : (s.giveResult u).world.call = s.world.call := rfl
@[simp] theorem giveResult_world_unitOut (u : UnitOut) : (s.giveResult u).world.unitOut = u := rfl
@[simp] theorem giveResult_world_writeAnswers (u : UnitOut) : (s.giveResult u).world.writeAnswers = s.world.writeAnswers := rfl
@[simp] theorem giveResult_world_readAnswers (u : UnitOut) : (s.giveResult u).world.readAnswers = s.world.readAnswers := rfl
@[simp] theorem giveResult_world_trace (u : UnitOut) : (s.giveResult u).world.trace = s.world.trace := rfl
@[simp] theorem giveResult_world_tick (u : UnitOut) : (s.giveResult u).world.tick = s.world.tick := rfl

/-! `State.withHost` -/

@[simp] theorem withHost_hreq (rest : List HostAct) : (s.withHost rest).hreq = s.hreq := rfl
@[simp] theorem withHost_rOp (rest : List HostAct) : (s.withHost rest).rOp = s.rOp := rfl
@[simp] theorem withHost_rModule (rest : List HostAct) : (s.withHost rest).rModule = s.rModule := rfl
@[simp] theorem withHost_rCmdid (rest : List HostAct) : (s.withHost rest).rCmdid = s.rCmdid := rfl
@[simp] theorem withHost_rWc (rest : List HostAct) : (s.withHost rest).rWc = s.rWc := rfl
@[simp] theorem withHost_txbuf (rest : List HostAct) : (s.withHost rest).txbuf = s.txbuf := rfl
@[simp] theorem withHost_rxbuf (rest : List HostAct) : (s.withHost rest).rxbuf = s.rxbuf := rfl
@[simp] theorem withHost_stat (rest : List HostAct) : (s.withHost rest).stat = s.stat := rfl
@[simp] theorem withHost_phase (rest : List HostAct) : (s.withHost rest).phase = s.phase := rfl
@[simp] theorem withHost_poll (rest : List HostAct) : (s.withHost rest).poll = s.poll := rfl
@[simp] theorem withHost_sync (rest : List HostAct) : (s.withHost rest).sync = s.sync := rfl
@[simp] theorem withHost_tries (rest : List HostAct) : (s.withHost rest).tries = s.tries := rfl
@[simp] theorem withHost_busy (rest : List HostAct) : (s.withHost rest).busy = s.busy := rfl
@[simp] theorem withHost_done (rest : List HostAct) : (s.withHost rest).done = s.done := rfl
@[simp] theorem withHost_sv (rest : List HostAct) : (s.withHost rest).sv = s.sv := rfl
@[simp] theorem withHost_resKind (rest : List HostAct) : (s.withHost rest).resKind = s.resKind := rfl
@[simp] theorem withHost_resStatus (rest : List HostAct) : (s.withHost rest).resStatus = s.resStatus := rfl
@[simp] theorem withHost_resLen (rest : List HostAct) : (s.withHost rest).resLen = s.resLen := rfl
@[simp] theorem withHost_resFlags (rest : List HostAct) : (s.withHost rest).resFlags = s.resFlags := rfl
@[simp] theorem withHost_build (rest : List HostAct) : (s.withHost rest).build = s.build := rfl
@[simp] theorem withHost_world_host (rest : List HostAct) : (s.withHost rest).world.host = rest := rfl
@[simp] theorem withHost_world_hostLog (rest : List HostAct) : (s.withHost rest).world.hostLog = s.world.hostLog := rfl
@[simp] theorem withHost_world_call (rest : List HostAct) : (s.withHost rest).world.call = s.world.call := rfl
@[simp] theorem withHost_world_unitOut (rest : List HostAct) : (s.withHost rest).world.unitOut = s.world.unitOut := rfl
@[simp] theorem withHost_world_writeAnswers (rest : List HostAct) : (s.withHost rest).world.writeAnswers = s.world.writeAnswers := rfl
@[simp] theorem withHost_world_readAnswers (rest : List HostAct) : (s.withHost rest).world.readAnswers = s.world.readAnswers := rfl
@[simp] theorem withHost_world_trace (rest : List HostAct) : (s.withHost rest).world.trace = s.world.trace := rfl
@[simp] theorem withHost_world_tick (rest : List HostAct) : (s.withHost rest).world.tick = s.world.tick := rfl

/-! `State.reply` -/

@[simp] theorem reply_hreq (r : HostReply) : (s.reply r).hreq = s.hreq := rfl
@[simp] theorem reply_rOp (r : HostReply) : (s.reply r).rOp = s.rOp := rfl
@[simp] theorem reply_rModule (r : HostReply) : (s.reply r).rModule = s.rModule := rfl
@[simp] theorem reply_rCmdid (r : HostReply) : (s.reply r).rCmdid = s.rCmdid := rfl
@[simp] theorem reply_rWc (r : HostReply) : (s.reply r).rWc = s.rWc := rfl
@[simp] theorem reply_txbuf (r : HostReply) : (s.reply r).txbuf = s.txbuf := rfl
@[simp] theorem reply_rxbuf (r : HostReply) : (s.reply r).rxbuf = s.rxbuf := rfl
@[simp] theorem reply_stat (r : HostReply) : (s.reply r).stat = s.stat := rfl
@[simp] theorem reply_phase (r : HostReply) : (s.reply r).phase = s.phase := rfl
@[simp] theorem reply_poll (r : HostReply) : (s.reply r).poll = s.poll := rfl
@[simp] theorem reply_sync (r : HostReply) : (s.reply r).sync = s.sync := rfl
@[simp] theorem reply_tries (r : HostReply) : (s.reply r).tries = s.tries := rfl
@[simp] theorem reply_busy (r : HostReply) : (s.reply r).busy = s.busy := rfl
@[simp] theorem reply_done (r : HostReply) : (s.reply r).done = s.done := rfl
@[simp] theorem reply_sv (r : HostReply) : (s.reply r).sv = s.sv := rfl
@[simp] theorem reply_resKind (r : HostReply) : (s.reply r).resKind = s.resKind := rfl
@[simp] theorem reply_resStatus (r : HostReply) : (s.reply r).resStatus = s.resStatus := rfl
@[simp] theorem reply_resLen (r : HostReply) : (s.reply r).resLen = s.resLen := rfl
@[simp] theorem reply_resFlags (r : HostReply) : (s.reply r).resFlags = s.resFlags := rfl
@[simp] theorem reply_build (r : HostReply) : (s.reply r).build = s.build := rfl
@[simp] theorem reply_world_host (r : HostReply) : (s.reply r).world.host = s.world.host := rfl
@[simp] theorem reply_world_hostLog (r : HostReply) : (s.reply r).world.hostLog = s.world.hostLog ++ [r] := rfl
@[simp] theorem reply_world_call (r : HostReply) : (s.reply r).world.call = s.world.call := rfl
@[simp] theorem reply_world_unitOut (r : HostReply) : (s.reply r).world.unitOut = s.world.unitOut := rfl
@[simp] theorem reply_world_writeAnswers (r : HostReply) : (s.reply r).world.writeAnswers = s.world.writeAnswers := rfl
@[simp] theorem reply_world_readAnswers (r : HostReply) : (s.reply r).world.readAnswers = s.world.readAnswers := rfl
@[simp] theorem reply_world_trace (r : HostReply) : (s.reply r).world.trace = s.world.trace := rfl
@[simp] theorem reply_world_tick (r : HostReply) : (s.reply r).world.tick = s.world.tick := rfl

/-! `State.ticked` -/

@[simp] theorem ticked_hreq : (s.ticked).hreq = s.hreq := rfl
@[simp] theorem ticked_rOp : (s.ticked).rOp = s.rOp := rfl
@[simp] theorem ticked_rModule : (s.ticked).rModule = s.rModule := rfl
@[simp] theorem ticked_rCmdid : (s.ticked).rCmdid = s.rCmdid := rfl
@[simp] theorem ticked_rWc : (s.ticked).rWc = s.rWc := rfl
@[simp] theorem ticked_txbuf : (s.ticked).txbuf = s.txbuf := rfl
@[simp] theorem ticked_rxbuf : (s.ticked).rxbuf = s.rxbuf := rfl
@[simp] theorem ticked_stat : (s.ticked).stat = s.stat := rfl
@[simp] theorem ticked_phase : (s.ticked).phase = s.phase := rfl
@[simp] theorem ticked_poll : (s.ticked).poll = s.poll := rfl
@[simp] theorem ticked_sync : (s.ticked).sync = s.sync := rfl
@[simp] theorem ticked_tries : (s.ticked).tries = s.tries := rfl
@[simp] theorem ticked_busy : (s.ticked).busy = s.busy := rfl
@[simp] theorem ticked_done : (s.ticked).done = s.done := rfl
@[simp] theorem ticked_sv : (s.ticked).sv = s.sv := rfl
@[simp] theorem ticked_resKind : (s.ticked).resKind = s.resKind := rfl
@[simp] theorem ticked_resStatus : (s.ticked).resStatus = s.resStatus := rfl
@[simp] theorem ticked_resLen : (s.ticked).resLen = s.resLen := rfl
@[simp] theorem ticked_resFlags : (s.ticked).resFlags = s.resFlags := rfl
@[simp] theorem ticked_build : (s.ticked).build = s.build := rfl
@[simp] theorem ticked_world_host : (s.ticked).world.host = s.world.host := rfl
@[simp] theorem ticked_world_hostLog : (s.ticked).world.hostLog = s.world.hostLog := rfl
@[simp] theorem ticked_world_call : (s.ticked).world.call = s.world.call := rfl
@[simp] theorem ticked_world_unitOut : (s.ticked).world.unitOut = s.world.unitOut := rfl
@[simp] theorem ticked_world_writeAnswers : (s.ticked).world.writeAnswers = s.world.writeAnswers := rfl
@[simp] theorem ticked_world_readAnswers : (s.ticked).world.readAnswers = s.world.readAnswers := rfl
@[simp] theorem ticked_world_trace : (s.ticked).world.trace = s.world.trace := rfl
@[simp] theorem ticked_world_tick : (s.ticked).world.tick = s.world.tick + 1 := rfl

/-! `State.released` and the reset -/

@[simp] theorem released_none (h : s.hreq = none) : s.released = s.world.host := by simp [State.released, h]
@[simp] theorem released_some {q : ReqWord} (h : s.hreq = some q) : s.released = .writeHreq q :: s.world.host := by
  simp [State.released, h]
@[simp] theorem serve_reset_hreq : (s.serve .reset).hreq = none := rfl
@[simp] theorem serve_reset_phase : (s.serve .reset).phase = .idle := rfl
@[simp] theorem serve_reset_busy : (s.serve .reset).busy = false := rfl
@[simp] theorem serve_reset_done : (s.serve .reset).done = false := rfl
@[simp] theorem serve_reset_build : (s.serve .reset).build = s.build := rfl
@[simp] theorem serve_reset_world :
    (s.serve .reset).world = { s.world with host := s.released, tick := s.world.tick + 1 } := rfl

end Sys2Proof.Machine
end

