-- ==== Sys2Proof/Laws/Ops.lean ====
section
/-! SUPPORT. One lemma for each shared operation: everything it can do, with the condition under which it does it. -/

namespace Sys2Proof.Machine

variable {s : State}

/-! ### The bus -/

theorem writeSucceeds_iff {frame : List Byte} : s.writeSucceeds frame = true ↔ s.nextCount = (frame.length : Int) := by
  simp [State.writeSucceeds]

theorem readSucceeds_iff {n : Nat} : s.readSucceeds n = true ↔ ReadAnswer.count s.nextRead = (n : Int) := by
  simp [State.readSucceeds]

/-- A count of `n >= 0` comes with exactly `n` bytes. -/
theorem count_eq_natCast {a : ReadAnswer} {n : Nat} (h : ReadAnswer.count a = (n : Int)) :
    ∃ bs, a = .delivered bs ∧ bs.length = n := by
  cases a with
  | delivered bs => exact ⟨bs, rfl, by simpa [ReadAnswer.count] using h⟩
  | failed k => simp only [ReadAnswer.count] at h; omega

/-- A read that succeeds brings exactly the bytes asked. -/
theorem bytes_of_readSucceeds {n : Nat} (h : s.readSucceeds n = true) :
    s.nextRead = .delivered (ReadAnswer.bytes s.nextRead) ∧ (ReadAnswer.bytes s.nextRead).length = n := by
  obtain ⟨bs, hb, hl⟩ := count_eq_natCast (readSucceeds_iff.mp h)
  simp [hb, ReadAnswer.bytes, hl]

/-- A status read that succeeds brings two bytes. -/
theorem two_of_readSucceeds (h : s.readSucceeds 2 = true) : ∃ b0 b1, s.nextRead = .delivered [b0, b1] := by
  obtain ⟨hb, hl⟩ := bytes_of_readSucceeds h
  match hm : ReadAnswer.bytes s.nextRead, hl with
  | [b0, b1], _ => exact ⟨b0, b1, by rw [hb, hm]⟩

/-! ### The ends of an operation -/

theorem fail_idle (e : OpError) (h : s.phase = .idle) : State.fail e s = s := by simp [State.fail, h]

theorem fail_running (e : OpError) (h : s.phase ≠ .idle) :
    State.fail e s = { s with
      resKind := OpError.kind e, resFlags := OpError.flags s.resFlags e, busy := false, done := true, phase := .idle } := by
  simp [State.fail, h]

theorem fail_phase (e : OpError) : (State.fail e s).phase = .idle := by
  unfold State.fail; split <;> simp [*]

/-! ### The frames -/

theorem sendFrame_ok {frame : List Byte} (k : State → State) (h : s.nextCount = (frame.length : Int)) :
    s.sendFrame frame k = k (s.afterWrite frame) := by
  simp [State.sendFrame, State.writeSucceeds, h]

theorem sendFrame_error {frame : List Byte} (k : State → State) (h : s.nextCount ≠ (frame.length : Int)) :
    s.sendFrame frame k = State.fail .busError (s.afterWrite frame) := by
  simp [State.sendFrame, State.writeSucceeds, h]

/-- A frame's continuation runs in the state after the write, or the operation ends with `BUS_ERROR`. -/
theorem sendFrame_cases (frame : List Byte) (k : State → State) :
    s.sendFrame frame k = k (s.afterWrite frame) ∨ s.sendFrame frame k = State.fail .busError (s.afterWrite frame) := by
  unfold State.sendFrame; split <;> simp

theorem advanceFrom_own {own : List Phase} (h : s.phase ∈ own) :
    State.advanceFrom own s = s.enterPhase (Phase.next s.phase) := by simp [State.advanceFrom, h]

theorem advanceFrom_other {own : List Phase} (h : s.phase ∉ own) : State.advanceFrom own s = s := by
  simp [State.advanceFrom, h]

/-! ### The waits -/

theorem isWait_iff {p : Phase} :
    Phase.isWait p = true ↔ p = .rdWaitA ∨ p = .rdWaitB ∨ p = .wrWaitA ∨ p = .wrWaitB := by cases p <;> decide

theorem toRead_wait (h : Phase.isWait s.phase = true) : s.toRead = { s with poll := .read } := by
  simp [State.toRead, h]

theorem receiveStatus_wait (st : DeviceStatus) (h : Phase.isWait s.phase = true) :
    State.receiveStatus st s = State.resolveWait st (s.latchStat st) := by simp [State.receiveStatus, h]

/-- What a wait does with a status: it is ready and left, or it is out of tries, or it goes on with one try less. -/
theorem resolveWait_cases (st : DeviceStatus) :
    (DeviceStatus.isReady st = true ∧ State.resolveWait st s = State.leaveWait st { s with sync := .ready }) ∨
    (DeviceStatus.isReady st = false ∧ s.tries = 0#8 ∧
      State.resolveWait st s = State.fail (.notReady st.booted st.busy) { s with sync := .timedOut }) ∨
    (DeviceStatus.isReady st = false ∧ s.tries ≠ 0#8 ∧
      State.resolveWait st s = { s with tries := s.tries - 1#8, poll := .sel }) := by
  unfold State.resolveWait
  by_cases hr : DeviceStatus.isReady st = true
  · simp [hr]
  · simp only [Bool.not_eq_true] at hr
    by_cases ht : s.tries = 0#8 <;> simp [hr, ht]

/-- Leaving a wait: the last wait of a `WRITE_DATA` ends it, the others go to the next phase. -/
theorem leaveWait_last (st : DeviceStatus) (h : s.phase = .wrWaitB) :
    State.leaveWait st s = { s with
      resStatus := st.code, resKind := .ok, busy := false, done := true, phase := .idle } := by
  simp [State.leaveWait, h, State.complete]

theorem leaveWait_next (st : DeviceStatus) (h : s.phase ≠ .wrWaitB) :
    State.leaveWait st s = { s with phase := Phase.next s.phase } := by simp [State.leaveWait, h]

/-! ### The probe called on its own -/

/-- What one probe can do: fail at its write, fail at its read, or latch the status of the two bytes that came. -/
theorem probe_cases (s : State) :
    (s.nextCount ≠ 2 ∧ s.probe = (none, s.afterWrite statusSelFrame)) ∨
    (s.nextCount = 2 ∧ ReadAnswer.count (s.afterWrite statusSelFrame).nextRead ≠ 2 ∧
      s.probe = (none, (s.afterWrite statusSelFrame).afterRead 2)) ∨
    (∃ b0 b1, s.nextCount = 2 ∧ (s.afterWrite statusSelFrame).nextRead = .delivered [b0, b1] ∧
      s.probe = (some (decodeStatusBytes b0 b1),
        ((s.afterWrite statusSelFrame).afterRead 2).latchStat (decodeStatusBytes b0 b1))) := by
  by_cases hw : s.nextCount = 2
  · have w : s.writeSucceeds statusSelFrame = true := writeSucceeds_iff.mpr hw
    by_cases hr : (s.afterWrite statusSelFrame).readSucceeds 2 = true
    · obtain ⟨b0, b1, hb⟩ := two_of_readSucceeds hr
      refine .inr (.inr ⟨b0, b1, hw, hb, ?_⟩)
      simp [State.probe, w, hr, hb, ReadAnswer.bytes]
    · refine .inr (.inl ⟨hw, fun h => hr (readSucceeds_iff.mpr h), ?_⟩)
      simp only [Bool.not_eq_true] at hr
      simp [State.probe, w, hr]
  · refine .inl ⟨hw, ?_⟩
    have w : s.writeSucceeds statusSelFrame = false := by
      simpa [State.writeSucceeds] using hw
    simp [State.probe, w]

/-! ### The start step -/

theorem startStep_held (op : BitVec 2) (m c : Byte) (w : Half) (h : s.phase ≠ .idle) :
    s.startStep op m c w = { s with hreq := some (requestWord op m c w) } := by simp [State.startStep, h]

/-- What the start step of an idle engine does: refuse, with the kind of the check, or accept. -/
theorem startStep_cases (op : BitVec 2) (m c : Byte) (w : Half) (h : s.phase = .idle) :
    (∃ k, k ≠ .ok ∧ checkRequest op m w = k ∧ s.startStep op m c w = s.refuseRequest k) ∨
    (op.toNat < 2 ∧ ModuleId.ofByte m ≠ none ∧ byteLen w ≤ Config.capBytes ∧
      s.startStep op m c w = s.acceptRequest op m c w) := by
  by_cases h1 : 2 ≤ op.toNat
  · exact .inl ⟨.illegalRequest, by decide, by simp [checkRequest, h1], by simp [State.startStep, h, checkRequest, h1]⟩
  · by_cases h2 : ModuleId.ofByte m = none
    · exact .inl ⟨.illegalRequest, by decide, by simp [checkRequest, h2], by simp [State.startStep, h, checkRequest, h2]⟩
    · by_cases h3 : Config.capBytes < byteLen w
      · exact .inl ⟨.capacityError, by decide, by simp only [checkRequest, h1, h2, h3]; simp,
          by simp only [State.startStep, h, checkRequest, h1, h2, h3]; simp⟩
      · exact .inr ⟨by omega, h2, by omega, by simp only [State.startStep, h, checkRequest, h1, h2, h3]; simp⟩

end Sys2Proof.Machine
end

