-- ==== Sys2Proof/Laws/PerInstr.lean ====
section
/-! SUPPORT. The one law made for each constructor: a frame is the two address bytes of its register and a whole number of words
after them (20_memory.md R61, R63, R69). -/

namespace Sys2Proof.Laws.AddressedFrame

open Machine

/-- 20_memory.md R61: the register address that a row's frame carries; `none` for a row that sends no frame. -/
def registerOf : Instr → Option Byte
  | .readData _ _ _ => none
  | .writeData _ _ _ => none
  | .hreqRun _ _ _ => none
  | .hreqOp3 _ _ _ => none
  | .statusSel => some 0x02#8
  | .dataSel => some 0x08#8
  | .lenRd _ => some 0x06#8
  | .lenWr _ => some 0x06#8
  | .cmdAgc _ => some 0x04#8
  | .cmdSys _ => some 0x04#8
  | .cmdVid _ => some 0x04#8
  | .cmdOem _ => some 0x04#8
  | .cmdRad _ => some 0x04#8
  | .dataWr _ => some 0x08#8
  | .statusRsp _ _ => none
  | .dataRsp _ => none
  | .probe => some 0x02#8
  | .waitReady _ => none
  | .swap16 _ => none
  | .decodeStatus _ _ => none
  | .encCmd _ _ _ => some 0x04#8
  | .encLenRd _ => some 0x06#8
  | .encLenWr _ => some 0x06#8
  | .packWrite _ _ => some 0x08#8
  | .unpackRead _ _ => none

/-- The encoding of a well-formed row that sends a frame. -/
def Statement (i : Instr) : Prop :=
  ∀ (mode : WriteLenMode) (a : Byte), registerOf i = some a → i.wellFormed mode = true →
    ∃ rest, encode mode i = 0x00#8 :: a :: rest ∧ rest.length % 2 = 0

theorem readData (m c : Byte) (w : Half) : Statement (.readData m c w) := by intro mode a h; cases h
theorem writeData (m c : Byte) (w : Half) : Statement (.writeData m c w) := by intro mode a h; cases h
theorem hreqRun (m c : Byte) (w : Half) : Statement (.hreqRun m c w) := by intro mode a h; cases h
theorem hreqOp3 (m c : Byte) (w : Half) : Statement (.hreqOp3 m c w) := by intro mode a h; cases h
theorem statusSel : Statement .statusSel := by intro mode a h _; cases h; exact ⟨_, rfl, by simp⟩
theorem dataSel : Statement .dataSel := by intro mode a h _; cases h; exact ⟨_, rfl, by simp⟩
theorem lenRd (len : Half) : Statement (.lenRd len) := by intro mode a h _; cases h; exact ⟨_, rfl, by simp⟩
theorem lenWr (len : Half) : Statement (.lenWr len) := by intro mode a h _; cases h; exact ⟨_, rfl, by simp⟩
theorem cmdAgc (k : Byte) : Statement (.cmdAgc k) := by intro mode a h _; cases h; exact ⟨_, rfl, by simp⟩
theorem cmdSys (k : Byte) : Statement (.cmdSys k) := by intro mode a h _; cases h; exact ⟨_, rfl, by simp⟩
theorem cmdVid (k : Byte) : Statement (.cmdVid k) := by intro mode a h _; cases h; exact ⟨_, rfl, by simp⟩
theorem cmdOem (k : Byte) : Statement (.cmdOem k) := by intro mode a h _; cases h; exact ⟨_, rfl, by simp⟩
theorem cmdRad (k : Byte) : Statement (.cmdRad k) := by intro mode a h _; cases h; exact ⟨_, rfl, by simp⟩
theorem dataWr (p : List Byte) : Statement (.dataWr p) := by
  intro mode a h hw; cases h; exact ⟨p, rfl, (payloadOk_iff.mp hw).1⟩
theorem statusRsp (b0 b1 : Byte) : Statement (.statusRsp b0 b1) := by intro mode a h; cases h
theorem dataRsp (p : List Byte) : Statement (.dataRsp p) := by intro mode a h; cases h
theorem probe : Statement .probe := by intro mode a h _; cases h; exact ⟨_, rfl, by simp⟩
theorem waitReady (n : Byte) : Statement (.waitReady n) := by intro mode a h; cases h
theorem swap16 (v : Half) : Statement (.swap16 v) := by intro mode a h; cases h
theorem decodeStatus (b0 b1 : Byte) : Statement (.decodeStatus b0 b1) := by intro mode a h; cases h
theorem encCmd (m : ModuleId) (cid : Byte) (op : Opcode) : Statement (.encCmd m cid op) := by
  intro mode a h _; cases h; exact ⟨_, rfl, by simp⟩
theorem encLenRd (wc : Half) : Statement (.encLenRd wc) := by intro mode a h _; cases h; exact ⟨_, rfl, by simp⟩
theorem encLenWr (wc : Half) : Statement (.encLenWr wc) := by intro mode a h _; cases h; exact ⟨_, rfl, by simp⟩
theorem packWrite (d : List Byte) (wc : Half) : Statement (.packWrite d wc) := by
  intro mode a h hw; cases h
  refine ⟨d.take (byteLen wc), rfl, ?_⟩
  simp only [Instr.wellFormed, Bool.and_eq_true, decide_eq_true_eq] at hw
  rw [List.length_take, byteLen]; omega
theorem unpackRead (r : List Byte) (wc : Half) : Statement (.unpackRead r wc) := by intro mode a h; cases h

end Sys2Proof.Laws.AddressedFrame
end

