-- ==== Sys2Proof/Laws/Step.lean ====
section
/-! SUPPORT. What one step of the engine is in each phase, and what one step of the block can be, so that no later proof
unfolds the fetch or the decoder. -/

namespace Sys2Proof.Machine

variable {s : State}

/-- With no host access to come, a step is the engine's. -/
theorem step_of_no_host (h : s.world.host = []) : step s = engineStep s := by simp [step, State.hostTurn, h]

/-- A turn serves no access, or one that nothing holds: the first of the host's, or the one right behind a held first. -/
theorem hostTurn_cases (s : State) :
    s.hostTurn = (s, true) ∨
    ∃ a ∈ s.world.host, ∃ rest, (HostAct.neverHeld a = true ∨ s.accepting = true) ∧
      s.hostTurn = ((s.withHost rest).serve a, HostAct.engineFollows a) := by
  match hh : s.world.host with
  | [] => exact .inl (by simp [State.hostTurn, hh])
  | a :: rest =>
    by_cases ha : (HostAct.neverHeld a || s.accepting) = true
    · exact .inr ⟨a, by simp, rest, by simpa using ha, by simp only [State.hostTurn, hh, ha]; rfl⟩
    · match rest with
      | [] => exact .inl (by simp only [State.hostTurn, hh, if_neg ha, State.whileHeld])
      | e :: more =>
        by_cases he : HostAct.neverHeld e = true
        · exact .inr ⟨e, by simp, a :: more, .inl he, by
            simp only [State.hostTurn, hh, if_neg ha, State.whileHeld, if_pos he]⟩
        · exact .inl (by simp only [State.hostTurn, hh, if_neg ha, State.whileHeld, if_neg he])

/-- A step is the engine's alone, or an access that nothing holds, followed or not by the engine's. -/
theorem step_cases (s : State) :
    step s = engineStep s ∨
    ∃ a ∈ s.world.host, ∃ rest, (HostAct.neverHeld a = true ∨ s.accepting = true) ∧
      ((HostAct.engineFollows a = true ∧ step s = engineStep ((s.withHost rest).serve a)) ∨
        (HostAct.engineFollows a = false ∧ step s = .next ((s.withHost rest).serve a))) := by
  obtain h | ⟨a, hm, rest, ha, h⟩ := hostTurn_cases s
  · exact .inl (by simp [step, h])
  · refine .inr ⟨a, hm, rest, ha, ?_⟩
    cases hf : HostAct.engineFollows a <;> simp [step, h, hf]

/-- 10_state.md R46, 70_reset_and_hazards.md R221: the turn while the first access is held. -/
theorem hostTurn_held {a : HostAct} {rest : List HostAct} (hh : s.world.host = a :: rest)
    (ha : HostAct.neverHeld a = false) (hs : s.accepting = false) : s.hostTurn = s.whileHeld a rest := by
  simp [State.hostTurn, hh, ha, hs]

/-! ### The waits -/

theorem fetch_wait (h : Phase.isWait s.phase = true) : s.fetch = s.fetchWait := by
  rw [isWait_iff] at h
  obtain h | h | h | h := h <;> simp [State.fetch, h]

/-- 41_ready_synchronizer.md R132. -/
theorem engineStep_wait_sel (h : Phase.isWait s.phase = true) (hp : s.poll = .sel) :
    engineStep s = .next (s.sendFrame statusSelFrame State.toRead) := by
  simp [engineStep, fetch_wait h, State.fetchWait, hp, exec, execStatusSel]

/-- 41_ready_synchronizer.md R133, the read succeeded. -/
theorem engineStep_wait_read (h : Phase.isWait s.phase = true) (hp : s.poll = .read) {b0 b1 : Byte}
    (hr : s.nextRead = .delivered [b0, b1]) :
    engineStep s = .next (State.resolveWait (decodeStatusBytes b0 b1)
      ((s.afterRead 2).latchStat (decodeStatusBytes b0 b1))) := by
  have : s.readSucceeds 2 = true := readSucceeds_iff.mpr (by simp [hr, ReadAnswer.count])
  simp [engineStep, fetch_wait h, State.fetchWait, hp, this, hr, ReadAnswer.bytes, exec, execStatusRsp,
    State.receiveStatus, h]

/-- 41_ready_synchronizer.md R133, the read failed. -/
theorem engineStep_wait_error (h : Phase.isWait s.phase = true) (hp : s.poll = .read)
    (hr : ReadAnswer.count s.nextRead ≠ 2) : engineStep s = .next (State.fail .busError (s.afterRead 2)) := by
  have : s.readSucceeds 2 = false := by simpa [State.readSucceeds] using hr
  simp [engineStep, fetch_wait h, State.fetchWait, hp, this]

/-! ### The steps of an operation -/

theorem engineStep_rdLen (h : s.phase = .rdLen) :
    engineStep s = .next (s.sendFrame (lengthFrame s.rWc) (State.advanceFrom [.rdLen])) := by
  simp [engineStep, State.fetch, h, encodeLenRd, exec, execLenRd]

theorem exec_commandInstr (m : ModuleId) (k : Byte) (s : State) :
    exec (commandInstr m k) s = .next (s.sendCommand m k) := by cases m <;> rfl

theorem engineStep_rdCmd (h : s.phase = .rdCmd) {m : ModuleId} (hm : ModuleId.ofByte s.rModule = some m) :
    engineStep s = .next (s.sendCommand m s.rCmdid) := by
  simp [engineStep, State.fetch, h, State.fetchCommand, hm, encodeCommand, exec_commandInstr, opcodeByte, Opcode.code]

theorem engineStep_rdSel (h : s.phase = .rdSel) :
    engineStep s = .next (s.sendFrame dataSelFrame (State.advanceFrom [.rdSel])) := by
  simp [engineStep, State.fetch, h, exec, execDataSel]

theorem engineStep_rdData (h : s.phase = .rdData) (hw : byteLen s.rWc ≤ Config.capBytes) {p : List Byte}
    (hp : s.nextRead = .delivered p) (hl : p.length = byteLen s.rWc) :
    engineStep s = .next ((s.afterRead (byteLen s.rWc)).storeResponse p) := by
  have hs : s.readSucceeds (byteLen s.rWc) = true := readSucceeds_iff.mpr (by simp [hp, ReadAnswer.count, hl])
  have hu : unpackPayload (ReadAnswer.bytes s.nextRead) s.rWc = p := by
    simp [unpackPayload, hp, ReadAnswer.bytes, ← hl]
  have ho : payloadOk p = true := payloadOk_iff.mpr ⟨by rw [hl]; simp [byteLen], by rw [hl]; exact hw⟩
  have hn : ¬ Config.capBytes < byteLen s.rWc := Nat.not_lt.mpr hw
  have hn' : ¬ Config.capBytes < p.length := by rw [hl]; exact hn
  simp only [engineStep, State.fetch, h, State.fetchData, if_neg hn, if_pos hs, hu, decode_dataRsp ho, exec, execDataRsp,
    if_neg hn', if_pos ho]

theorem engineStep_rdData_error (h : s.phase = .rdData) (hw : byteLen s.rWc ≤ Config.capBytes)
    (hr : ReadAnswer.count s.nextRead ≠ (byteLen s.rWc : Int)) :
    engineStep s = .next (State.fail .busError (State.spoilRx (byteLen s.rWc) (s.afterRead (byteLen s.rWc)))) := by
  have hs : ¬ s.readSucceeds (byteLen s.rWc) = true := fun e => hr (readSucceeds_iff.mp e)
  have hn : ¬ Config.capBytes < byteLen s.rWc := Nat.not_lt.mpr hw
  simp only [engineStep, State.fetch, h, State.fetchData, if_neg hn, if_neg hs]

theorem txRun_length (s : State) (n : Nat) : (s.txRun n).length = n := by simp [State.txRun]

theorem engineStep_wrData (h : s.phase = .wrData) (hw : byteLen s.rWc ≤ Config.capBytes) :
    engineStep s = .next (s.sendFrame (payloadFrame (s.txRun (byteLen s.rWc))) (State.advanceFrom [.wrData])) := by
  have hp : packPayload (s.txRun (byteLen s.rWc)) s.rWc = payloadFrame (s.txRun (byteLen s.rWc)) := by
    rw [packPayload, List.take_of_length_le (by rw [txRun_length])]
  have ho : payloadOk (s.txRun (byteLen s.rWc)) = true :=
    payloadOk_iff.mpr ⟨by rw [txRun_length]; simp [byteLen], by rw [txRun_length]; exact hw⟩
  have hn : ¬ Config.capBytes < byteLen s.rWc := Nat.not_lt.mpr hw
  simp only [engineStep, State.fetch, h, State.fetchPayload, if_neg hn, hp, decode_payloadFrame ho, exec, execDataWr,
    if_pos ho]

theorem engineStep_wrLen (h : s.phase = .wrLen) :
    engineStep s = .next (s.sendFrame (lengthFrame (writeLenField s.build.writeLenMode s.rWc))
      (State.advanceFrom [.wrLen])) := by
  have hw := writeLenField_wf s.build.writeLenMode s.rWc
  simp only [engineStep, State.fetch, h, encodeLenWr, decode_lenWr hw, exec, execLenWr, if_pos hw]

theorem engineStep_wrCmd (h : s.phase = .wrCmd) {m : ModuleId} (hm : ModuleId.ofByte s.rModule = some m) :
    engineStep s = .next (s.sendCommand m (s.rCmdid + 1#8)) := by
  simp [engineStep, State.fetch, h, State.fetchCommand, hm, encodeCommand, exec_commandInstr, opcodeByte, Opcode.code]

/-! ### The idle engine -/

theorem engineStep_idle (h : s.phase = .idle) (hq : s.hreq = none) (hc : s.world.call = none) :
    engineStep s = .next s := by simp [engineStep, State.fetch, h, State.fetchIdle, hq, hc]

theorem engineStep_call (h : s.phase = .idle) (hq : s.hreq = none) {i : Instr} (hc : s.world.call = some i) :
    engineStep s = exec i { s with world := { s.world with call := none } } := by
  simp [engineStep, State.fetch, h, State.fetchIdle, hq, hc]

/-- A request word is its fields under the six reserved bits. -/
theorem requestBytes_eq (q : ReqWord) :
    requestBytes q = [q.extractLsb' 32 8, q.extractLsb' 24 8, q.extractLsb' 16 8, q.extractLsb' 8 8, q.extractLsb' 0 8] := by
  simp only [requestBytes, List.cons.injEq, and_true]
  refine ⟨?_, ?_, ?_, ?_, ?_⟩ <;> apply BitVec.eq_of_toNat_eq <;>
    simp [BitVec.extractLsb', Nat.shiftRight_eq_div_pow]

/-- 44_engine_operations.md R160, R161: the start step on the word on the port. -/
theorem engineStep_request (h : s.phase = .idle) {q : ReqWord} (hq : s.hreq = some q) :
    engineStep s = .next (
      if 4 ≤ q.toNat / 4294967296 then (State.refuseRequest .illegalRequest { s with hreq := none })
      else State.startStep (BitVec.ofNat 2 (q.toNat / 4294967296)) (BitVec.ofNat 8 (q.toNat / 16777216))
        (BitVec.ofNat 8 (q.toNat / 65536)) (BitVec.ofNat 16 q.toNat) { s with hreq := none }) := by
  have hlt := q.isLt
  have hb : be16 (BitVec.ofNat 8 (q.toNat / 256)) (BitVec.ofNat 8 q.toNat) = BitVec.ofNat 16 q.toNat := by
    apply BitVec.eq_of_toNat_eq
    rw [be16_toNat]; simp; omega
  have ht : (BitVec.ofNat 8 (q.toNat / 4294967296)).toNat = q.toNat / 4294967296 := by
    simp; omega
  simp only [engineStep, State.fetch, h, State.fetchIdle, hq, requestBytes, decode, decodeRequest, ht, hb]
  by_cases hz : 4 ≤ q.toNat / 4294967296
  · rw [if_pos (by omega), if_pos hz]; rfl
  · rw [if_neg (by omega), if_neg hz]
    have : q.toNat / 4294967296 = 0 ∨ q.toNat / 4294967296 = 1 ∨ q.toNat / 4294967296 = 2 ∨
        q.toNat / 4294967296 = 3 := by omega
    obtain e | e | e | e := this <;>
      simp [e, exec, execReadData, execWriteData, execHreqRun, execHreqOp3]

end Sys2Proof.Machine
end

