-- ==== Sys2Proof/Tests/Slice0.lean ====
section
/-! SUPPORT. The model's own tests. Expected values are those of 95_test_vectors.md and of the worked examples of the rules;
the words are written out from 30_encoding.md. The last part shows, for every statement with hypotheses, a state and operands
that meet them. -/

namespace Sys2Proof.Tests

open Machine

/-! ### Helpers -/

/-- The outcome is a next state of which `f` holds. -/
def next (o : Host.Outcome State Fault Refusal) (f : State → Bool) : Bool :=
  match o with
  | .next t => f t
  | _ => false

/-- The outcome is this refusal. -/
def refused (o : Host.Outcome State Fault Refusal) (r : Refusal) : Bool :=
  match o with
  | .refused r' => r == r'
  | _ => false

/-- A state after reset whose free values are given, with the bus answers to come. -/
def base (ws : List Int) (rs : List ReadAnswer) : State :=
  { State.afterReset { retryBudget := 10#8, writeLenMode := .lowByte, pollDelay := 0, devAddr := 0 }
      { World.start with writeAnswers := ws, readAnswers := rs } with
    stat := { code := 0#8, booted := false, bootMode := false, busy := false } }

/-- The same in a phase of an operation that asked for two words of AGC. -/
def running (p : Phase) (ws : List Int) (rs : List ReadAnswer) : State :=
  { base ws rs with
    phase := p, busy := true, tries := 10#8, sv := Phase.pastFirstWait p
    rOp := (if Phase.ofWrite p then 1#2 else 0#2), rModule := 0x01#8, rWc := 2#16 }

/-- The idle engine with the host's accesses to come. -/
def hosted (acts : List HostAct) : State := { base [] [] with world := { World.start with host := acts } }

/-! ### Decoding: words of 30_encoding.md R91 to R97 and of 95_test_vectors.md -/

theorem test_decode_requests :
    decode .request [0x00#8, 0x01#8, 0x00#8, 0x00#8, 0x02#8] = .ok (.readData 0x01#8 0x00#8 2#16) ∧
    decode .request [0x01#8, 0x02#8, 0x04#8, 0x00#8, 0x02#8] = .ok (.writeData 0x02#8 0x04#8 2#16) ∧
    decode .request [0x02#8, 0x01#8, 0x00#8, 0x03#8, 0xE8#8] = .ok (.hreqRun 0x01#8 0x00#8 1000#16) ∧
    decode .request [0x03#8, 0x01#8, 0x00#8, 0x00#8, 0x00#8] = .ok (.hreqOp3 0x01#8 0x00#8 0#16) := by decide

/-- 95_test_vectors.md 2.7: bits 34 and 39 set. -/
theorem test_decode_reserved_request_bits :
    decode .request [0x04#8, 0x01#8, 0x00#8, 0x00#8, 0x01#8] = .rejected .reservedRequestBits ∧
    decode .request [0x80#8, 0x01#8, 0x00#8, 0x00#8, 0x01#8] = .rejected .reservedRequestBits := by decide

theorem test_decode_selects :
    decode .statusSel [0x00#8, 0x02#8] = .ok .statusSel ∧ decode .dataSel [0x00#8, 0x08#8] = .ok .dataSel ∧
    decode .dataSel [0x00#8, 0x02#8] = .rejected .wrongAddress ∧
    decode .statusSel [0x01#8, 0x02#8] = .rejected .reservedByte := by decide

theorem test_decode_lengths :
    decode .lenRd [0x00#8, 0x06#8, 0x01#8, 0x2C#8] = .ok (.lenRd 300#16) ∧
    decode (.lenWr .lowByte) [0x00#8, 0x06#8, 0x00#8, 0x2C#8] = .ok (.lenWr 44#16) ∧
    decode (.lenWr .full16) [0x00#8, 0x06#8, 0x02#8, 0x00#8] = .ok (.lenWr 512#16) ∧
    decode (.lenWr .lowByte) [0x00#8, 0x06#8, 0x02#8, 0x00#8] = .rejected .reservedLengthByte := by decide

theorem test_decode_commands :
    decode (.command .agc) [0x00#8, 0x04#8, 0x01#8, 0x00#8] = .ok (.cmdAgc 0x00#8) ∧
    decode (.command .sys) [0x00#8, 0x04#8, 0x02#8, 0x05#8] = .ok (.cmdSys 0x05#8) ∧
    decode (.command .vid) [0x00#8, 0x04#8, 0x03#8, 0x12#8] = .ok (.cmdVid 0x12#8) ∧
    decode (.command .oem) [0x00#8, 0x04#8, 0x40#8, 0x1D#8] = .ok (.cmdOem 0x1D#8) ∧
    decode (.command .rad) [0x00#8, 0x04#8, 0x40#8, 0xC6#8] = .ok (.cmdRad 0xC6#8) ∧
    decode (.command .vid) [0x00#8, 0x04#8, 0x80#8, 0x00#8] = .rejected .wrongModuleByte := by decide

theorem test_decode_payloads :
    decode .dataWr [0x00#8, 0x08#8, 0x12#8, 0x34#8] = .ok (.dataWr [0x12#8, 0x34#8]) ∧
    decode .dataWr [0x00#8, 0x08#8, 0x12#8] = .rejected .badPayload ∧
    decode .dataRsp [0xDE#8, 0xAD#8, 0xBE#8, 0xEF#8] = .ok (.dataRsp [0xDE#8, 0xAD#8, 0xBE#8, 0xEF#8]) ∧
    decode .statusRsp [0xFB#8, 0x05#8] = .ok (.statusRsp 0xFB#8 0x05#8) ∧
    decode .statusRsp [0xFB#8] = .rejected .wrongLength := by decide

theorem test_decode_primitives :
    decode .probe [0x00#8, 0x02#8, 0xFB#8, 0x05#8] = .ok .probe ∧
    decode .swap16 [0x12#8, 0x34#8] = .ok (.swap16 0x1234#16) ∧
    decode .decodeStatus [0x00#8, 0x06#8] = .ok (.decodeStatus 0x00#8 0x06#8) ∧
    decode .encCmd [0x00#8, 0x04#8, 0x40#8, 0x1D#8] = .ok (.encCmd .oem 0x1D#8 .get) ∧
    decode .encLenRd [0x00#8, 0x06#8, 0x01#8, 0x00#8] = .ok (.encLenRd 256#16) ∧
    decode (.encLenWr .lowByte) [0x00#8, 0x06#8, 0x00#8, 0xFF#8] = .ok (.encLenWr 255#16) ∧
    decode .packWrite [0x00#8, 0x08#8, 0x12#8, 0x34#8] = .ok (.packWrite [0x12#8, 0x34#8] 1#16) ∧
    decode .unpackRead [0x12#8, 0x34#8] = .ok (.unpackRead [0x12#8, 0x34#8] 1#16) := by decide

/-- The words of spec/opcode_table.json, bit 0 least significant. -/
theorem test_table_words :
    decodeTableWord 40 0x0001000002 = some (.readData 0x01#8 0x00#8 2#16) ∧
    decodeTableWord 40 0x0102040002 = some (.writeData 0x02#8 0x04#8 2#16) ∧
    decodeTableWord 16 0x0002 = some .statusSel ∧ decodeTableWord 16 0x0008 = some .dataSel ∧
    decodeTableWord 32 0x0006012C = some (.lenRd 300#16) ∧ decodeTableWord 32 0x0006002C = some (.lenWr 44#16) ∧
    decodeTableWord 32 0x00040205 = some (.cmdSys 0x05#8) ∧ decodeTableWord 32 0x00044005 = some (.cmdOem 0x05#8) ∧
    decodeTableWord 16 0xFB05 = some (.statusRsp 0xFB#8 0x05#8) ∧ decodeTableWord 32 0x0002FB05 = some .probe ∧
    decodeTableWord 40 0x0401000001 = none := by decide

/-- The word placed after reset runs as the first instruction. -/
theorem test_placed_words_run :
    next (step (State.reset.withFetchWord 40 0x0001000002)) (fun t => t.phase == .rdWaitA && t.busy) ∧
    next (step (State.reset.withFetchWord 40 0x0401000001)) (fun t => t.resKind == .illegalRequest && t.done) ∧
    next (step (State.reset.withFetchWord 16 0xFB05)) (fun t => t.stat.code == 0xFB#8 && t.sv) ∧
    next (step (State.reset.withFetchWord 32 0xDEADBEEF)) (fun t => t.resLen == 4#16 && t.resKind == .ok) := by decide

/-! ### WellFormed: one ill-formed term for each check -/

theorem test_wf_lenWr_high_byte : Instr.wellFormed .lowByte (.lenWr 256#16) = false := by decide
theorem test_wf_lenWr_full16 : Instr.wellFormed .full16 (.lenWr 256#16) = true := by decide
theorem test_wf_dataWr_odd : Instr.wellFormed .lowByte (.dataWr [0x12#8]) = false := by decide
theorem test_wf_dataWr_long : Instr.wellFormed .lowByte (.dataWr (List.replicate 1026 0#8)) = false := by
  rw [Instr.wellFormed, payloadOk, List.length_replicate]; decide
theorem test_wf_dataRsp_odd : Instr.wellFormed .lowByte (.dataRsp [0x12#8]) = false := by decide
theorem test_wf_packWrite_short : Instr.wellFormed .lowByte (.packWrite [0x12#8] 1#16) = false := by decide
theorem test_wf_packWrite_count : Instr.wellFormed .lowByte (.packWrite [] 513#16) = false := by decide
theorem test_wf_unpackRead_length : Instr.wellFormed .lowByte (.unpackRead [0x12#8, 0x34#8, 0x56#8] 1#16) = false := by
  decide
theorem test_wf_unpackRead_count : Instr.wellFormed .lowByte (.unpackRead [] 513#16) = false := by decide

/-! ### The meanings, one step each -/

/-- P1, the start step. -/
theorem test_readData_starts :
    next (exec (.readData 0x01#8 0x00#8 2#16) (base [] [])) fun t =>
      t.phase == .rdWaitA && t.tries == 10#8 && t.hstat == 0x01#8 && t.rModule == 0x01#8 && t.rWc == 2#16 := by decide

/-- 2.7: `MODULE = 0x40` with a legal count, and 513 words of AGC. -/
theorem test_readData_refused :
    next (exec (.readData 0x40#8 0x00#8 1#16) (base [] [])) (fun t => t.resKind == .illegalRequest && t.hstat == 0x02#8) ∧
    next (exec (.readData 0x01#8 0x00#8 513#16) (base [] [])) (fun t => t.resKind == .capacityError && t.rModule == 0#8) := by
  decide

/-- P3, the start step. -/
theorem test_writeData_starts :
    next (exec (.writeData 0x02#8 0x04#8 2#16) (base [] [])) fun t =>
      t.phase == .wrWaitA && t.rOp == 1#2 && t.rCmdid == 0x04#8 && t.busy := by decide

/-- 2.7: `2 * 65535` does not wrap. -/
theorem test_writeData_over_capacity :
    next (exec (.writeData 0x80#8 0x00#8 65535#16) (base [] [])) fun t => t.resKind == .capacityError && !t.busy := by decide

/-- P10: the length of the last result is cleared, the latches stay. -/
theorem test_run_request_refused :
    next (exec (.hreqRun 0x01#8 0x00#8 0#16) { base [] [] with resLen := 4#16, rWc := 2#16, sv := true, done := true }) fun t =>
      t.resKind == .illegalRequest && t.resLen == 0#16 && t.rWc == 2#16 && t.hstat == 0x06#8 := by decide

/-- 2.7: illegal is tested before capacity. -/
theorem test_op3_request_refused :
    next (exec (.hreqOp3 0x01#8 0x00#8 1000#16) (base [] [])) fun t => t.resKind == .illegalRequest := by decide

/-- P1 step 1, and P5b: the first write fails. -/
theorem test_statusSel :
    next (exec .statusSel (running .rdWaitA [2] [])) (fun t => t.poll == .read && t.phase == .rdWaitA) ∧
    next (exec .statusSel (running .rdWaitA [-1] [])) (fun t =>
      t.resKind == .busError && t.hstat == 0x02#8 && t.tries == 10#8 && t.poll == .sel) := by decide

/-- P1 step 7. -/
theorem test_dataSel :
    next (exec .dataSel (running .rdSel [2] [])) fun t =>
      t.phase == .rdData && t.world.trace == [.wrote [0x00#8, 0x08#8] 2] := by decide

/-- P1 step 3; a count larger than asked is an error too (decision D12). -/
theorem test_lenRd :
    next (exec (.lenRd 2#16) (running .rdLen [4] [])) (fun t =>
      t.phase == .rdCmd && t.world.trace == [.wrote [0x00#8, 0x06#8, 0x00#8, 0x02#8] 4]) ∧
    next (exec (.lenRd 2#16) (running .rdLen [5] [])) (fun t => t.resKind == .busError && t.phase == .idle) := by decide

/-- P3 step 4. -/
theorem test_lenWr :
    next (exec (.lenWr 2#16) (running .wrLen [4] [])) fun t =>
      t.phase == .wrCmd && t.world.trace == [.wrote [0x00#8, 0x06#8, 0x00#8, 0x02#8] 4] := by decide

/-- P1 step 4: the second wait is entered with a full budget. -/
theorem test_cmdAgc :
    next (exec (.cmdAgc 0x00#8) { running .rdCmd [4] [] with tries := 3#8, poll := .read, sync := .ready }) fun t =>
      t.phase == .rdWaitB && t.tries == 10#8 && t.poll == .sel && t.sync == .polling &&
        t.world.trace == [.wrote [0x00#8, 0x04#8, 0x01#8, 0x00#8] 4] := by decide

/-- P3 step 5. -/
theorem test_cmdSys :
    next (exec (.cmdSys 0x05#8) (running .wrCmd [4] [])) fun t =>
      t.phase == .wrWaitB && t.world.trace == [.wrote [0x00#8, 0x04#8, 0x02#8, 0x05#8] 4] := by decide

/-- P4's command frame. -/
theorem test_cmdVid :
    next (exec (.cmdVid 0x10#8) (running .rdCmd [4] [])) fun t =>
      t.world.trace == [.wrote [0x00#8, 0x04#8, 0x03#8, 0x10#8] 4] := by decide

/-- P7: OEM and RAD put the same bytes on the bus. -/
theorem test_cmdOem_cmdRad :
    next (exec (.cmdOem 0x1C#8) (running .rdCmd [4] [])) (fun t =>
      t.world.trace == [.wrote [0x00#8, 0x04#8, 0x40#8, 0x1C#8] 4]) ∧
    next (exec (.cmdRad 0x1C#8) (running .rdCmd [4] [])) (fun t =>
      t.world.trace == [.wrote [0x00#8, 0x04#8, 0x40#8, 0x1C#8] 4]) := by decide

/-- P3 step 3, and P3c: a short write. -/
theorem test_dataWr :
    next (exec (.dataWr [0x00#8, 0x01#8, 0x00#8, 0x02#8]) (running .wrData [6] [])) (fun t =>
      t.phase == .wrLen && t.world.trace == [.wrote [0x00#8, 0x08#8, 0x00#8, 0x01#8, 0x00#8, 0x02#8] 6]) ∧
    next (exec (.dataWr [0x00#8, 0x01#8, 0x00#8, 0x02#8]) (running .wrData [4] [])) (fun t =>
      t.resKind == .busError && t.resStatus == 0#8) := by decide

/-- P1 step 2, and P8: out of tries on booted and busy. -/
theorem test_statusRsp :
    next (exec (.statusRsp 0x00#8 0x06#8) (running .rdWaitA [] [])) (fun t =>
      t.hstat == 0x05#8 && t.sync == .ready && t.phase == .rdLen && t.tries == 10#8 && t.stat.bootMode) ∧
    next (exec (.statusRsp 0x00#8 0x07#8) { running .wrWaitB [] [] with tries := 0#8 }) (fun t =>
      t.resKind == .notReady && t.resFlags == 3#2 && t.resStatus == 0#8 && t.sync == .timedOut && t.hstat == 0x06#8) := by
  decide

/-- P3b: the code goes to `RES_STATUS`, and the result is `OK`. -/
theorem test_statusRsp_ends_write :
    next (exec (.statusRsp 0xFB#8 0x06#8) (running .wrWaitB [] [])) fun t =>
      t.resStatus == 0xFB#8 && sext8 t.resStatus == -5 && t.resKind == .ok && t.phase == .idle := by decide

/-- P1 step 8. -/
theorem test_dataRsp :
    next (exec (.dataRsp [0xDE#8, 0xAD#8, 0xBE#8, 0xEF#8]) (running .rdData [] [])) fun t =>
      Memory.read t.rxbuf 0 == some 0xDE#8 && Memory.word t.rxbuf 1 == some 0xBEEF#16 && t.resLen == 4#16 &&
        t.hstat == 0x06#8 := by decide

/-- The example of R121, and a short read. -/
theorem test_probe :
    next (exec .probe (base [2] [.delivered [0xFB#8, 0x05#8]])) (fun t =>
      t.stat == ⟨0xFB#8, true, false, true⟩ && t.sv) ∧
    next (exec .probe (base [2] [.delivered [0xFB#8]])) (fun t => !t.sv && t.world.unitOut == .probed none) := by decide

/-- 2.6: `n` = 1, not ready, ready: two probes. -/
theorem test_waitReady :
    next (exec (.waitReady 1#8) (base [2, 2] [.delivered [0#8, 5#8], .delivered [0#8, 4#8]])) fun t =>
      t.world.unitOut == .waited .ready && t.tries == 0#8 && t.sync == .ready && t.world.trace.length == 4 := by decide

/-- S6: `WAIT_READY(0)` on booted and busy; and a bus error with tries left, which is no timeout. -/
theorem test_waitReady_ends :
    next (exec (.waitReady 0#8) (base [2] [.delivered [0#8, 5#8]])) (fun t =>
      t.world.unitOut == .waited (.timedOut true true) && t.sync == .timedOut && t.world.trace.length == 2) ∧
    next (exec (.waitReady 8#8) (base [2] [.delivered [0#8]])) (fun t =>
      t.world.unitOut == .waited .busError && t.tries == 8#8 && t.sync == .polling && !t.sv) := by decide

/-- S2. -/
theorem test_swap16 :
    next (exec (.swap16 0x1234#16) (base [] [])) fun t => t.world.unitOut == .half 0x3412#16 := by decide

/-- 2.1: the ignored bits, and bit 2 of byte 0. -/
theorem test_decodeStatus :
    next (exec (.decodeStatus 0x80#8 0xFE#8) (base [] [])) (fun t =>
      t.world.unitOut == .status ⟨0x80#8, true, true, false⟩) ∧
    next (exec (.decodeStatus 0x04#8 0x00#8) (base [] [])) (fun t =>
      t.world.unitOut == .status ⟨0x04#8, false, false, false⟩) ∧ sext8 0x80#8 = -128 ∧ sext8 0x7F#8 = 127 := by decide

/-- 2.2: the wrap, and the carry that an or would not give. -/
theorem test_encCmd :
    next (exec (.encCmd .sys 0xFF#8 .set) (base [] [])) (fun t =>
      t.world.unitOut == .bytes [0x00#8, 0x04#8, 0x02#8, 0x00#8]) ∧
    next (exec (.encCmd .agc 0x03#8 .set) (base [] [])) (fun t =>
      t.world.unitOut == .bytes [0x00#8, 0x04#8, 0x01#8, 0x04#8]) ∧
    next (exec (.encCmd .rad 0xC4#8 .run) (base [] [])) (fun t =>
      t.world.unitOut == .bytes [0x00#8, 0x04#8, 0x40#8, 0xC6#8]) := by decide

/-- 2.3. -/
theorem test_encLenRd :
    next (exec (.encLenRd 300#16) (base [] [])) fun t =>
      t.world.unitOut == .bytes [0x00#8, 0x06#8, 0x01#8, 0x2C#8] := by decide

/-- 2.3, both modes. -/
theorem test_encLenWr :
    next (exec (.encLenWr 300#16) (base [] [])) (fun t =>
      t.world.unitOut == .bytes [0x00#8, 0x06#8, 0x00#8, 0x2C#8]) ∧
    next (exec (.encLenWr 300#16) { base [] [] with build := ⟨10#8, .full16, 0, 0⟩ }) (fun t =>
      t.world.unitOut == .bytes [0x00#8, 0x06#8, 0x01#8, 0x2C#8]) := by decide

/-- 2.4: bytes beyond `2*wc` are not sent. -/
theorem test_packWrite :
    next (exec (.packWrite [0xDE#8, 0xAD#8, 0xBE#8, 0xEF#8] 1#16) (base [] [])) fun t =>
      t.world.unitOut == .bytes [0x00#8, 0x08#8, 0xDE#8, 0xAD#8] := by decide

/-- 2.4. -/
theorem test_unpackRead :
    next (exec (.unpackRead [0xDE#8, 0xAD#8, 0xBE#8, 0xEF#8] 2#16) (base [] [])) fun t =>
      t.world.unitOut == .bytes [0xDE#8, 0xAD#8, 0xBE#8, 0xEF#8] := by decide

/-- Log entry 23: terms that no bytes decode to. -/
theorem test_ill_formed_refused :
    refused (exec (.lenWr 256#16) (running .wrLen [4] [])) .illFormedOperand ∧
    refused (exec (.packWrite [0x12#8] 1#16) (base [] [])) .illFormedOperand := by decide

/-! ### Steps with the host in them -/

/-- 10_state.md R46: the access is held and the engine steps; R38: `HSTAT` is read at once. -/
theorem test_held_access :
    next (step { running .rdLen [4] [] with world := { World.start with host := [.readKind], writeAnswers := [4] } })
      (fun t => t.phase == .rdCmd && t.world.host == [.readKind] && t.world.hostLog == []) ∧
    next (step { running .rdLen [4] [] with world := { World.start with host := [.readHstat] } })
      (fun t => t.phase == .rdLen && t.world.host == [] && t.world.hostLog == [.hstat 0x05#8]) := by decide

/-- 70_reset_and_hazards.md R221: a reset while a write of `TXBUF` is held drops the operation and leaves the write to come. -/
theorem test_reset_behind_held_access :
    next (step { running .rdLen [4] [] with world := { World.start with host := [.writeTx 0 0xAB#8, .reset] } })
      (fun t => t.phase == .idle && t.hstat == 0x00#8 && t.world.host == [.writeTx 0 0xAB#8] && t.world.trace == [] &&
        next (step t) (fun u => Memory.read u.txbuf 0 == some 0xAB#8)) := by decide

/-- 44_engine_operations.md R160: the write of `HREQ` is the start step's. -/
theorem test_hreq_write : next (step (hosted [.writeHreq 0x0003100001#40])) fun t =>
    t.phase == .rdWaitA && t.rModule == 0x03#8 && t.rCmdid == 0x10#8 && t.hreq == none := by decide

/-- 10_state.md R26; 70_reset_and_hazards.md R221. -/
theorem test_tx_write_and_reset :
    next (step (hosted [.writeTx 1023 0xAB#8])) (fun t => Memory.read t.txbuf 1023 == some 0xAB#8) ∧
    next (step { running .wrCmd [] [] with world := { World.start with host := [.reset] } }) (fun t =>
      t.phase == .idle && t.hstat == 0x00#8 && t.rModule == 0x00#8 && t.rWc == 0#16) := by decide

/-- P5: the data read comes back short. -/
theorem test_short_data_read :
    next (step (running .rdData [] [.delivered [0x01#8, 0x02#8, 0x03#8]])) fun t =>
      t.resKind == .busError && t.resLen == 0#16 && t.phase == .idle := by decide

/-! ### Witnesses: for every statement with hypotheses, a state and operands that meet them, clause by clause -/

theorem witness_EncLenWrFormByMode :
    (base [] []).build.writeLenMode = .lowByte ∧
    ({ base [] [] with build := ⟨10#8, .full16, 0, 0⟩ } : State).build.writeLenMode = .full16 := by decide

/-- The largest count. -/
theorem witness_PackWritePutsAddressThenPayload :
    (512#16).toNat ≤ 512 ∧ 2 * (512#16).toNat ≤ (List.replicate 1025 (0x5A#8 : Byte)).length := by
  rw [List.length_replicate]; decide

theorem witness_UnpackReadIsTheIdentity :
    (512#16).toNat ≤ 512 ∧ (List.replicate 1024 (0x5A#8 : Byte)).length = 2 * (512#16).toNat := by
  rw [List.length_replicate]; decide

/-- Each of the six clauses, at its boundary. -/
theorem witness_IllFormedOperandsAreRefused :
    (¬ ((513#16).toNat ≤ 512 ∧ 2 * (513#16).toNat ≤ ([] : List Byte).length)) ∧
    (¬ ((1#16).toNat ≤ 512 ∧ ([0x12#8] : List Byte).length = 2 * (1#16).toNat)) ∧
    ((base [] []).build.writeLenMode = .lowByte ∧ 256 ≤ (256#16).toNat) ∧
    (¬ (([0x12#8] : List Byte).length % 2 = 0 ∧ ([0x12#8] : List Byte).length ≤ 1024)) ∧
    (1024 < (List.replicate 1025 (0x12#8 : Byte)).length) ∧
    ((List.replicate 1023 (0x12#8 : Byte)).length ≤ 1024 ∧ (List.replicate 1023 (0x12#8 : Byte)).length % 2 = 1) := by
  simp only [List.length_replicate]; decide

theorem witness_ProbeLatchesTheWholeStatus :
    let s := base [2] [.delivered [0xFB#8, 0x05#8]]
    s.nextCount = 2 ∧ (s.afterWrite [0x00#8, 0x02#8]).nextRead = .delivered [0xFB#8, 0x05#8] := by decide

/-- A failed write; a read of one byte; a read that fails hard. -/
theorem witness_FailedProbeKeepsTheStatus :
    let s (r : Int) (a : ReadAnswer) := base [r] [a]
    ((s 1 (.failed 0)).phase = .idle ∧ (s 1 (.failed 0)).nextCount ≠ 2) ∧
    ((s 2 (.delivered [0x00#8])).nextCount = 2 ∧
      ReadAnswer.count ((s 2 (.delivered [0x00#8])).afterWrite [0x00#8, 0x02#8]).nextRead ≠ 2) ∧
    ReadAnswer.count ((s 2 (.failed 0)).afterWrite [0x00#8, 0x02#8]).nextRead ≠ 2 := by decide

/-- The rule's own example: three statuses that are not ready, then one that is, with the budget 10; and with no try to
spare. -/
theorem witness_WaitReadyEndsAtTheFirstReadyProbe :
    let waits : List (Byte × Byte) := [(0x00#8, 0x05#8), (0x00#8, 0x05#8), (0x00#8, 0x05#8)]
    let s := base [2, 2, 2, 2]
      [.delivered [0x00#8, 0x05#8], .delivered [0x00#8, 0x05#8], .delivered [0x00#8, 0x05#8], .delivered [0x00#8, 0x04#8]]
    waits.length ≤ (10#8).toNat ∧ waits.length ≤ (3#8).toNat ∧ (∀ r ∈ waits, readyBytes r = false) ∧
    readyBytes (0x00#8, 0x04#8) = true ∧ s.world.writeAnswers = List.replicate (waits.length + 1) 2 ++ [] ∧
    s.world.readAnswers = probeAnswers (waits ++ [(0x00#8, 0x04#8)]) ++ [] :=
  ⟨by decide, by decide, by simp [readyBytes], by decide, rfl, rfl⟩

theorem witness_WaitReadyTimesOutAfterAllProbes :
    let waits : List (Byte × Byte) := [(0x00#8, 0x01#8)]
    let s := base [2, 2] [.delivered [0x00#8, 0x01#8], .delivered [0x00#8, 0x05#8]]
    waits.length = (1#8).toNat ∧ (∀ r ∈ waits, readyBytes r = false) ∧ readyBytes (0x00#8, 0x05#8) = false ∧
    s.world.writeAnswers = List.replicate (waits.length + 1) 2 ++ [] ∧
    s.world.readAnswers = probeAnswers (waits ++ [(0x00#8, 0x05#8)]) ++ [] :=
  ⟨rfl, by simp [readyBytes], by decide, rfl, rfl⟩

theorem witness_BufferWordsAreBigEndian :
    Memory.read [(0, 0x12#8), (1, 0x34#8)] (2 * 0) = some 0x12#8 ∧
    Memory.read [(0, 0x12#8), (1, 0x34#8)] (2 * 0 + 1) = some 0x34#8 := by decide

/-- P3's payload, the words 0x0001 and 0x0002. -/
theorem witness_PayloadFrameCarriesTheWordsOfTxbuf :
    let s : State := { running .wrData [6] [] with txbuf := [(0, 0x00#8), (1, 0x01#8), (2, 0x00#8), (3, 0x02#8)] }
    s.phase = .wrData ∧ s.world.host = [] ∧ [0x0001#16, 0x0002#16].length ≤ 512 ∧
    s.rWc = BitVec.ofNat 16 [0x0001#16, 0x0002#16].length ∧
    ∀ j w, [0x0001#16, 0x0002#16][j]? = some w → Memory.word s.txbuf j = some w := by
  refine ⟨rfl, rfl, by decide, rfl, ?_⟩
  intro j w h
  match j with
  | 0 => cases h; rfl
  | 1 => cases h; rfl
  | j + 2 => simp at h

/-- The largest count, for each module. -/
theorem witness_AcceptedRequestsEnterTheirFirstWait :
    (base [] []).phase = .idle ∧ (512#16).toNat ≤ 512 ∧
    ∀ m ∈ [0x01#8, 0x02#8, 0x03#8, 0x80#8, 0xE0#8], m ∈ [0x01#8, 0x02#8, 0x03#8, 0x80#8, 0xE0#8] := by decide

theorem witness_RunAndOp3RequestsAreIllegal : (base [] []).phase = .idle := by decide

/-- A byte that is no module, and the smallest count over the capacity. -/
theorem witness_ReadAndWriteRefusalsByModuleThenCapacity :
    (base [] []).phase = .idle ∧ 0x40#8 ∉ [0x01#8, 0x02#8, 0x03#8, 0x80#8, 0xE0#8] ∧
    0xE0#8 ∈ [0x01#8, 0x02#8, 0x03#8, 0x80#8, 0xE0#8] ∧ 1024 < 2 * (513#16).toNat ∧ ¬ 1024 < 2 * (512#16).toNat := by
  decide

/-- Each branch of the check: reserved bits, the operation, the module, the count, and an accepted word. -/
theorem witness_StartStepJudgesTheRawRequestWord :
    let s (q : ReqWord) : State := { base [] [] with hreq := some q }
    ((s 0x0401000001#40).phase = .idle ∧ (s 0x0401000001#40).world.host = []) ∧
    (0x0401000001#40).extractLsb' 34 6 ≠ 0#6 ∧ 2 ≤ ((0x0201000000#40).extractLsb' 32 2).toNat ∧
    (0x0040000001#40).extractLsb' 24 8 ∉ [0x01#8, 0x02#8, 0x03#8, 0x80#8, 0xE0#8] ∧
    1024 < 2 * ((0x0001000201#40).extractLsb' 0 16).toNat ∧ ¬ 1024 < 2 * ((0x00E0C40200#40).extractLsb' 0 16).toNat := by
  decide

theorem witness_RequestsAreHeldWhileAnOperationRuns : (running .wrLen [] []).phase ≠ .idle := by decide

/-- A whole write, and one that is one byte short, for each frame of the sequencer. -/
theorem witness_StatusSelMovesTheProbeToItsRead :
    (running .rdWaitA [2] []).phase ∈ [Phase.rdWaitA, .rdWaitB, .wrWaitA, .wrWaitB] ∧
    (running .rdWaitA [2] []).poll = .sel ∧ (running .rdWaitA [2] []).nextCount = 2 ∧
    (running .wrWaitB [1] []).nextCount ≠ 2 := by decide

theorem witness_LenRdStep : (running .rdLen [4] []).phase = .rdLen ∧ (running .rdLen [4] []).nextCount = 4 ∧
    (running .rdLen [3] []).nextCount ≠ 4 := by decide

theorem witness_CommandStepOfReadEntersTheCompletionWait :
    (running .rdCmd [4] []).phase = .rdCmd ∧ (running .rdCmd [4] []).rModule = ModuleId.code .agc ∧
    (running .rdCmd [4] []).nextCount = 4 ∧ (running .rdCmd [5] []).nextCount ≠ 4 := by decide

theorem witness_CommandStepOfWriteEntersTheCompletionWait :
    (running .wrCmd [4] []).phase = .wrCmd ∧ (running .wrCmd [4] []).rModule = ModuleId.code .agc ∧
    (running .wrCmd [4] []).nextCount = 4 ∧ (running .wrCmd [-1] []).nextCount ≠ 4 := by decide

theorem witness_DataSelStep : (running .rdSel [2] []).phase = .rdSel ∧ (running .rdSel [2] []).nextCount = 2 ∧
    (running .rdSel [0] []).nextCount ≠ 2 := by decide

/-- The largest payload, and P3's. -/
theorem witness_DataWrStepSendsTxbuf :
    (running .wrData [6] []).phase = .wrData ∧ (running .wrData [6] []).rWc.toNat ≤ 512 ∧
    (List.replicate 1024 (0x00#8 : Byte)).length % 2 = 0 ∧ (List.replicate 1024 (0x00#8 : Byte)).length ≤ 1024 ∧
    (running .wrData [6] []).nextCount = (([0x00#8, 0x01#8, 0x00#8, 0x02#8] : List Byte).length : Int) + 2 := by
  simp only [List.length_replicate]; decide

/-- Both modes, and the largest length field the low byte holds. -/
theorem witness_LenWrStepByMode :
    (running .wrLen [4] []).phase = .wrLen ∧ (running .wrLen [4] []).build.writeLenMode = .lowByte ∧
    ({ running .wrLen [4] [] with build := ⟨10#8, .full16, 0, 0⟩ } : State).build.writeLenMode = .full16 ∧
    (255#16).toNat < 256 ∧ (running .wrLen [4] []).nextCount = 4 := by decide

/-- Each row outside its phases: idle and running, the frame taken whole and not. -/
theorem witness_RowsOutsideTheirPhaseLeaveTheSequencer :
    ((base [2] []).phase ∉ [Phase.rdWaitA, .rdWaitB, .wrWaitA, .wrWaitB] ∧
      (running .wrLen [2] []).phase ∉ [Phase.rdWaitA, .rdWaitB, .wrWaitA, .wrWaitB] ∧ (running .wrLen [2] []).nextCount = 2) ∧
    ((running .rdData [1] []).phase ≠ .rdSel ∧ (running .rdData [1] []).nextCount ≠ 2) ∧
    ((running .wrLen [4] []).phase ≠ .rdLen ∧ (running .wrLen [4] []).phase ≠ .rdCmd ∧
      (running .wrLen [4] []).phase ≠ .wrCmd ∧ (running .wrLen [4] []).nextCount = 4) ∧
    ((running .rdLen [4] []).phase ≠ .wrLen ∧ (255#16).toNat < 256) ∧
    ((running .wrLen [4] []).phase ≠ .wrData ∧ (List.replicate 1024 (0x00#8 : Byte)).length % 2 = 0 ∧
      (List.replicate 1024 (0x00#8 : Byte)).length ≤ 1024) ∧
    ((base [] []).phase ≠ .rdData ∧ ([0x12#8, 0x34#8] : List Byte).length % 2 = 0) := by
  simp only [List.length_replicate]; decide

theorem witness_ReadyStatusLeavesTheWait :
    (0x06#8).getLsbD 2 = true ∧ (0x06#8).getLsbD 0 = false ∧ (running .rdWaitA [] []).phase = .rdWaitA ∧
    (running .rdWaitB [] []).phase = .rdWaitB ∧ (running .wrWaitA [] []).phase = .wrWaitA := by decide

theorem witness_ReadyStatusCompletesWriteDataWithItsCode :
    (0x06#8).getLsbD 2 = true ∧ (0x06#8).getLsbD 0 = false ∧ (running .wrWaitB [] []).phase = .wrWaitB := by decide

/-- The three pairs that are not ready; one try left and none. -/
theorem witness_NotReadyStatusRetriesOrTimesOut :
    (∀ b1 ∈ [0x00#8, 0x01#8, 0x05#8], ¬ (b1.getLsbD 2 = true ∧ b1.getLsbD 0 = false)) ∧
    (running .wrWaitB [] []).phase ∈ [Phase.rdWaitA, .rdWaitB, .wrWaitA, .wrWaitB] ∧
    ({ running .wrWaitB [] [] with tries := 1#8 } : State).tries ≠ 0#8 ∧
    ({ running .wrWaitB [] [] with tries := 0#8 } : State).tries = 0#8 := by decide

/-- The longest response, and the empty one. -/
theorem witness_DataResponseFillsRxbufAndCompletes :
    (running .rdData [] []).phase = .rdData ∧ (List.replicate 1024 (0x00#8 : Byte)).length % 2 = 0 ∧
    (List.replicate 1024 (0x00#8 : Byte)).length ≤ 1024 ∧ ([] : List Byte).length % 2 = 0 := by
  simp only [List.length_replicate]; decide

theorem witness_StepRunsTheDecodedInstruction :
    ((running .rdLen [4] []).world.host = [] ∧
      (running .rdLen [4] []).fetch = .bytes .lenRd [0x00#8, 0x06#8, 0x00#8, 0x02#8] (running .rdLen [4] []) ∧
      decode .lenRd [0x00#8, 0x06#8, 0x00#8, 0x02#8] = .ok (.lenRd 2#16)) ∧
    ({ base [] [] with world := { World.start with call := some .probe } } : State).fetch = .called .probe (base [] []) := by
  decide

theorem witness_StatusReadChecksTheBusFirst :
    let s (a : ReadAnswer) : State := { running .rdWaitA [] [a] with poll := .read, tries := 0#8 }
    (s (.failed 0)).phase ∈ [Phase.rdWaitA, .rdWaitB, .wrWaitA, .wrWaitB] ∧ (s (.failed 0)).poll = .read ∧
    (s (.failed 0)).world.host = [] ∧ (s (.delivered [0x00#8, 0x06#8])).nextRead = .delivered [0x00#8, 0x06#8] ∧
    ReadAnswer.count (s (.failed 0)).nextRead ≠ 2 ∧ ReadAnswer.count (s (.delivered [1#8, 2#8, 3#8])).nextRead ≠ 2 := by
  decide

theorem witness_DataReadStep :
    let s (a : ReadAnswer) : State := running .rdData [] [a]
    (s (.failed 0)).phase = .rdData ∧ (s (.failed 0)).world.host = [] ∧ (s (.failed 0)).rWc.toNat ≤ 512 ∧
    (s (.delivered [1#8, 2#8, 3#8, 4#8])).nextRead = .delivered [1#8, 2#8, 3#8, 4#8] ∧
    ([1#8, 2#8, 3#8, 4#8] : List Byte).length = 2 * (s (.failed 0)).rWc.toNat ∧
    ReadAnswer.count (s (.delivered [1#8, 2#8, 3#8])).nextRead ≠ 2 * ((s (.failed 0)).rWc.toNat : Int) := by decide

theorem witness_IdleEngineWaitsForARequest :
    (base [] []).phase = .idle ∧ (base [] []).hreq = none ∧ (base [] []).world.call = none ∧
    (base [] []).world.host = [] := by decide

theorem witness_PhaseMovesOnlyAlongItsOperation :
    (base [] []).phase = .idle ∧ Phase.isWait (running .rdWaitB [2] []).phase = true ∧
    ((running .rdSel [2] []).phase ≠ .idle ∧ Phase.isWait (running .rdSel [2] []).phase = false) ∧
    next (engineStep (base [] [])) (fun _ => true) ∧ next (engineStep (running .rdWaitB [2] [])) (fun _ => true) ∧
    next (engineStep (running .rdSel [2] [])) (fun _ => true) := by decide

/-- A running operation, in its first wait, between the waits, and in the data read, meets the invariant. -/
theorem running_inv (p : Phase) (ws : List Int) (rs : List ReadAnswer)
    (h : p = .rdWaitA ∨ p = .rdLen ∨ p = .rdData ∨ p = .wrWaitB ∨ p = .wrCmd) : State.Inv (running p ws rs) := by
  obtain rfl | rfl | rfl | rfl | rfl := h <;>
    refine ⟨?_, ?_, ?_, ?_, ?_, ?_, Nat.le_refl _, fun _ h => (by cases h), Nat.zero_le _, rfl, ?_, ?_, ?_,
      fun h => absurd rfl h, fun h => absurd rfl h, fun h => absurd rfl h, ?_, rfl, rfl⟩ <;>
    simp [running, base, State.afterReset, Phase.ofRead, Phase.ofWrite, Phase.pastFirstWait, ModuleId.ofByte, Config.capWords]

theorem witness_EachStepIsTheTransactionOfItsPhase :
    State.Inv (running .rdLen [4] []) ∧ (running .rdLen [4] []).phase ≠ .idle ∧
    ∃ t, engineStep (running .rdLen [4] []) = .next t :=
  ⟨running_inv _ _ _ (by simp), by decide, _, rfl⟩

theorem witness_OnlyMappedFramesReachTheBus :
    State.Inv (running .rdData [] [.delivered [1#8, 2#8, 3#8, 4#8]]) ∧
    (running .rdData [] [.delivered [1#8, 2#8, 3#8, 4#8]]).world.call = none ∧
    ∃ t, step (running .rdData [] [.delivered [1#8, 2#8, 3#8, 4#8]]) = .next t :=
  ⟨running_inv _ _ _ (by simp), rfl, _, rfl⟩

theorem witness_RunningOperationKeepsLatchesAndTxbuf :
    (running .wrCmd [4] []).phase ≠ .idle ∧ (running .wrCmd [4] []).sv = true ∧ (running .wrCmd [4] []).phase ≠ .rdData ∧
    (running .wrCmd [4] []).phase ≠ .wrWaitB ∧ next (engineStep (running .wrCmd [4] [])) (fun _ => true) := by decide

/-- The least and the largest count the low byte cannot say. -/
theorem witness_LongWritesAnnounceTheirCountModulo256 :
    let s (w : Half) : State := { running .wrLen [4] [] with rWc := w }
    (s 256#16).phase = .wrLen ∧ (s 256#16).world.host = [] ∧ (s 256#16).build.writeLenMode = .lowByte ∧
    256 ≤ (s 256#16).rWc.toNat ∧ (s 512#16).rWc.toNat ≤ 512 ∧ (s 512#16).nextCount = 4 := by decide

theorem witness_RadOperationRunsAsOem :
    let s : State := { running .rdCmd [4] [] with rModule := 0x80#8 }
    s.phase ≠ .idle ∧ s.world.host = [] ∧ s.rModule = 0x80#8 ∧ next (step s) (fun _ => true) := by decide

/-- A held write with nothing, an access, a pass and a read of `HSTAT` behind it. -/
theorem witness_HostAccessesAreHeldWhileBusy :
    let s (rest : List HostAct) : State := { running .rdLen [] [] with
      world := { World.start with host := .writeTx 0 0xAB#8 :: rest, writeAnswers := [4] } }
    HostAct.writeTx 0 0xAB#8 ∉ [HostAct.pass, .reset, .readHstat] ∧
    (∀ e ∈ ([.readKind] : List HostAct).head?, e ∉ [HostAct.pass, .reset, .readHstat]) ∧
    ∀ rest ∈ [[], [.readKind], [.pass], [.readHstat]],
      (s rest).busy = true ∧ (s rest).world.host = .writeTx 0 0xAB#8 :: rest ∧ next (step (s rest)) (fun _ => true) := by decide

theorem witness_HstatReadsAreNeverHeld : (hosted [.readHstat, .pass]).world.host = .readHstat :: [.pass] := by decide

/-- Each of the seven accesses. -/
theorem witness_IdleReadsReturnTheRegisters :
    ∀ a ∈ [HostAct.readKind, .readStatus, .readLen, .readFlags, .readStat, .readSync, .swap16 0x1234#16],
      (hosted [a]).busy = false ∧ (hosted [a]).hreq = none ∧ (hosted [a]).world.host = a :: [] := by decide

theorem witness_HostBufferAccesses :
    (hosted [.writeTx 1023 0xAB#8]).world.host = .writeTx 1023 0xAB#8 :: [] ∧
    ((hosted [.readTx 0]).world.host = .readTx 0 :: [] ∧
      Memory.read ({ hosted [.readTx 0] with txbuf := [(0, 0xAB#8)] } : State).txbuf 0 = some 0xAB#8) ∧
    ((hosted [.readRx 1023]).busy = false ∧ (hosted [.readRx 1023]).hreq = none ∧
      Memory.read ({ hosted [.readRx 1023] with rxbuf := [(1023, 0xCD#8)] } : State).rxbuf 1023 = some 0xCD#8) := by decide

theorem witness_HreqWriteIsTakenByTheStartStep :
    let s := hosted [.writeHreq 0x0001000002#40]
    s.busy = false ∧ s.hreq = none ∧ s.phase = .idle ∧ s.world.host = .writeHreq 0x0001000002#40 :: [] := by decide

theorem witness_ResetInputDropsEverything :
    ({ running .wrCmd [4] [] with world := { World.start with host := [.reset] } } : State).world.host = .reset :: [] := by
  decide

/-- A held write of `TXBUF`, of `HREQ`, and a held read. -/
theorem witness_ResetReleasesAHeldAccess :
    ∀ a ∈ [HostAct.writeTx 1023 0xAB#8, .writeHreq 0x0001000002#40, .readKind],
      let s : State := { running .wrCmd [4] [] with world := { World.start with host := [a, .reset] } }
      s.busy = true ∧ s.hreq = none ∧ a ∉ [HostAct.pass, .reset, .readHstat] ∧ s.world.host = a :: .reset :: [] := by decide

/-- A length field, the byte of a count the low byte holds, and a payload that is sent whole. -/
theorem witness_DecodeOfEncodeIsTheInstruction :
    (Instr.wellFormed .lowByte (.encLenWr 255#16) = true ∧
      slotOf .lowByte (.encLenWr 255#16) = some (.encLenWr .lowByte) ∧ (255#16).toNat < 256) ∧
    (Instr.wellFormed .lowByte (.packWrite [0x12#8, 0x34#8] 1#16) = true ∧
      slotOf .lowByte (.packWrite [0x12#8, 0x34#8] 1#16) = some .packWrite ∧
      ([0x12#8, 0x34#8] : List Byte).length = 2 * (1#16).toNat) ∧
    (Instr.wellFormed .full16 (.lenWr 512#16) = true ∧ slotOf .full16 (.lenWr 512#16) = some (.lenWr .full16)) := by decide

theorem witness_EncodeOfDecodeIsTheBytes :
    decode (.lenWr .lowByte) [0x00#8, 0x06#8, 0x00#8, 0xFF#8] = .ok (.lenWr 255#16) ∧
    (∀ m', Slot.lenWr .lowByte = .lenWr m' → m' = .lowByte) ∧
    (∀ m', Slot.lenWr .lowByte = .encLenWr m' → m' = .lowByte) ∧ Slot.lenWr .lowByte ≠ .probe := by
  refine ⟨by decide, ?_, ?_, by decide⟩ <;> intro m' h <;> cases h
  rfl

theorem witness_EveryStepKeepsTheInvariant :
    State.Inv (running .wrCmd [4] []) ∧ ∃ t, step (running .wrCmd [4] []) = .next t :=
  ⟨running_inv _ _ _ (by simp), _, rfl⟩

theorem witness_NoStepStopsTheMachine :
    State.Inv (running .rdData [] [.failed 0]) ∧
    ∀ i, (running .rdData [] [.failed 0]).world.call = some i → i.wellFormed .lowByte = true :=
  ⟨running_inv _ _ _ (by simp), fun _ h => by cases h⟩

theorem witness_EveryOperationEndsWithin48Transactions :
    State.Inv (running .rdWaitA [] []) ∧ (running .rdWaitA [] []).phase ≠ .idle ∧
    (running .rdWaitA [] []).world.host = [] ∧ (running .rdWaitA [] []).build.retryBudget = 10#8 :=
  ⟨running_inv _ _ _ (by simp), by decide, rfl, rfl⟩

theorem witness_SequencerWaitRefinesWaitReady :
    Phase.isWait (running .wrWaitB [2] [.failed 0]).phase = true ∧ (running .wrWaitB [2] [.failed 0]).poll = .sel ∧
    (running .wrWaitB [2] [.failed 0]).world.host = [] := by decide

/-- P1, with a busy status before each ready one. -/
theorem witness_WholeReadDataDeliversThePayload :
    let w1 : List (Byte × Byte) := [(0x00#8, 0x05#8)]
    let p : List Byte := [0xDE#8, 0xAD#8, 0xBE#8, 0xEF#8]
    let s : State := { base [2, 2, 4, 4, 2, 2, 2]
      (probeAnswers (w1 ++ [(0x00#8, 0x06#8)]) ++ probeAnswers (w1 ++ [(0xFF#8, 0x04#8)]) ++ [.delivered p]) with
      hreq := some (requestWord 0#2 (ModuleId.code .agc) 0x00#8 2#16) }
    s.phase = .idle ∧ s.world.host = [] ∧ (2#16).toNat ≤ 512 ∧ p.length = 2 * (2#16).toNat ∧
    w1.length ≤ s.build.retryBudget.toNat ∧ (∀ r ∈ w1 ++ w1, readyBytes r = false) ∧
    readyBytes (0x00#8, 0x06#8) = true ∧ readyBytes (0xFF#8, 0x04#8) = true ∧
    s.world.writeAnswers = List.replicate (w1.length + 1) 2 ++ [4, 4] ++ List.replicate (w1.length + 1) 2 ++ [2] ∧
    s.hreq = some (requestWord 0#2 (ModuleId.code .agc) 0x00#8 2#16) ∧
    s.world.readAnswers =
      probeAnswers (w1 ++ [(0x00#8, 0x06#8)]) ++ probeAnswers (w1 ++ [(0xFF#8, 0x04#8)]) ++ [.delivered p] :=
  ⟨rfl, rfl, by decide, rfl, by decide, by simp [readyBytes], by decide, by decide, rfl, rfl, rfl⟩

/-- P3, with a busy status before the first ready one. -/
theorem witness_WholeWriteDataSendsPayloadLengthCommand :
    let w1 : List (Byte × Byte) := [(0x00#8, 0x05#8)]
    let p : List Byte := [0xAB#8, 0xCD#8]
    let s : State := { base [2, 2, 4, 4, 4, 2] (probeAnswers (w1 ++ [(0x00#8, 0x06#8)]) ++ probeAnswers [(0xFB#8, 0x06#8)]) with
      hreq := some (requestWord 1#2 (ModuleId.code .sys) 0x04#8 1#16), txbuf := [(0, 0xAB#8), (1, 0xCD#8)] }
    s.phase = .idle ∧ s.world.host = [] ∧ (1#16).toNat ≤ 512 ∧ p.length = 2 * (1#16).toNat ∧
    (∀ i b, p[i]? = some b → Memory.read s.txbuf i = some b) ∧ w1.length ≤ s.build.retryBudget.toNat ∧
    (∀ r ∈ w1 ++ [], readyBytes r = false) ∧ readyBytes (0x00#8, 0x06#8) = true ∧ readyBytes (0xFB#8, 0x06#8) = true ∧
    s.world.writeAnswers =
      List.replicate (w1.length + 1) 2 ++ [2 * ((1#16).toNat : Int) + 2, 4, 4] ++ List.replicate (0 + 1) 2 ∧
    s.hreq = some (requestWord 1#2 (ModuleId.code .sys) 0x04#8 1#16) ∧
    s.world.readAnswers = probeAnswers (w1 ++ [(0x00#8, 0x06#8)]) ++ probeAnswers ([] ++ [(0xFB#8, 0x06#8)]) := by
  refine ⟨rfl, rfl, by decide, rfl, ?_, by decide, by simp [readyBytes], by decide, by decide, rfl, rfl, rfl⟩
  intro i b h
  match i with
  | 0 => cases h; rfl
  | 1 => cases h; rfl
  | i + 2 => simp at h

end Sys2Proof.Tests
end

section
/-! SUPPORT. The proofs of the statements of 10_state.md: what a step of the engine can do, and what follows from it. -/

namespace Sys2Proof.Machine

/-! ## What a step of the engine can do

One inversion for the engine in an operation (`RunStep`), one for the idle engine (`IdleStep`); the safety theorems are
case splits over their constructors. -/

section EngineSteps

variable {s t u : State} {b : Nat}

/-- `w'` is `w` after the engine's turn: the host's accesses and its log are not touched, and no call has come up. -/
structure World.After (w w' : World) : Prop where
  host : w'.host = w.host
  hostLog : w'.hostLog = w.hostLog
  call : ∀ i, w'.call = some i → w.call = some i

theorem World.After.refl (w : World) : w.After w := ⟨rfl, rfl, fun _ h => h⟩

theorem World.After.trans {w₁ w₂ w₃ : World} (h : w₁.After w₂) (h' : w₂.After w₃) : w₁.After w₃ :=
  ⟨h'.host.trans h.host, h'.hostLog.trans h.hostLog, fun i hi => h.call i (h'.call i hi)⟩

theorem after_afterWrite (s : State) (frame : List Byte) : s.world.After (s.afterWrite frame).world :=
  ⟨rfl, rfl, fun _ h => h⟩

theorem after_afterRead (s : State) (n : Nat) : s.world.After (s.afterRead n).world := ⟨rfl, rfl, fun _ h => h⟩

/-! ### The engine in an operation -/

/-- 10_state.md R37: every next state of the engine in an operation; `w` is the world after the step's transaction. -/
inductive RunStep (s : State) (w : World) : State → Prop where
  /-- 41_ready_synchronizer.md R132 -/
  | selected (wait : Phase.isWait s.phase = true) : RunStep s w { s with poll := .read, world := w }
  /-- 41_ready_synchronizer.md R133, not ready, tries left -/
  | retried (st : DeviceStatus) (wait : Phase.isWait s.phase = true) (busy : DeviceStatus.isReady st = false)
      (left : s.tries ≠ 0#8) :
      RunStep s w { s with stat := st, sv := true, tries := s.tries - 1#8, poll := .sel, world := w }
  /-- 41_ready_synchronizer.md R133, not ready, no tries left -/
  | timedOut (st : DeviceStatus) (wait : Phase.isWait s.phase = true) (busy : DeviceStatus.isReady st = false)
      (out : s.tries = 0#8) :
      RunStep s w { s with
        stat := st, sv := true, sync := .timedOut, resKind := .notReady, resFlags := flagsOf st.booted st.busy
        busy := false, done := true, phase := .idle, world := w }
  /-- 41_ready_synchronizer.md R133, ready -/
  | leftWait (st : DeviceStatus) (wait : Phase.isWait s.phase = true) (more : s.phase ≠ .wrWaitB)
      (ready : DeviceStatus.isReady st = true) :
      RunStep s w { s with stat := st, sv := true, sync := .ready, phase := Phase.next s.phase, world := w }
  /-- 44_engine_operations.md R173 to R175 -/
  | completedWrite (st : DeviceStatus) (last : s.phase = .wrWaitB) (ready : DeviceStatus.isReady st = true) :
      RunStep s w { s with
        stat := st, sv := true, sync := .ready, resStatus := st.code, resKind := .ok
        busy := false, done := true, phase := .idle, world := w }
  /-- 44_engine_operations.md R164, R167, R170, R171 -/
  | sent (own : s.phase ∈ [Phase.rdLen, .rdSel, .wrData, .wrLen]) :
      RunStep s w { s with phase := Phase.next s.phase, world := w }
  /-- 44_engine_operations.md R165, R172 -/
  | sentCommand (own : s.phase ∈ [Phase.rdCmd, .wrCmd]) :
      RunStep s w { s with
        phase := Phase.next s.phase, poll := .sel, tries := s.build.retryBudget, sync := .polling, world := w }
  /-- 44_engine_operations.md R168, R175 -/
  | completedRead (p : List Byte) (last : s.phase = .rdData) (len : p.length = byteLen s.rWc)
      (fits : byteLen s.rWc ≤ Config.capBytes) :
      RunStep s w { s with
        rxbuf := Memory.writeRun s.rxbuf 0 p, resLen := BitVec.ofNat 16 p.length, resKind := .ok
        busy := false, done := true, phase := .idle, world := w }
  /-- 60_exceptions.md R198 -/
  | busError : RunStep s w { s with resKind := .busError, busy := false, done := true, phase := .idle, world := w }
  /-- 44_engine_operations.md R168: a failed data read leaves unspecified bytes -/
  | dataError (p : List Byte) (last : s.phase = .rdData) (len : p.length = byteLen s.rWc)
      (fits : byteLen s.rWc ≤ Config.capBytes) :
      RunStep s w { s with
        rxbuf := Memory.writeRun s.rxbuf 0 p, resKind := .busError
        busy := false, done := true, phase := .idle, world := w }

/-- A frame of the sequencer does what its continuation does, or ends the operation. -/
theorem runStep_sendFrame (hp : s.phase ≠ .idle) (frame : List Byte) {k : State → State}
    (h : RunStep s (s.afterWrite frame).world (k (s.afterWrite frame))) :
    RunStep s (s.afterWrite frame).world (s.sendFrame frame k) := by
  obtain e | e := sendFrame_cases (s := s) frame k
  · rwa [e]
  · rw [e, fail_running _ (by exact hp)]; exact .busError

theorem ne_idle_of_isWait (wait : Phase.isWait s.phase = true) : s.phase ≠ .idle := by
  intro h; simp [h, Phase.isWait] at wait

/-- 41_ready_synchronizer.md R133: what the status read of a wait leads to. -/
theorem runStep_resolveWait (wait : Phase.isWait s.phase = true) (st : DeviceStatus) :
    RunStep s (s.afterRead 2).world (State.resolveWait st ((s.afterRead 2).latchStat st)) := by
  have hp := ne_idle_of_isWait wait
  obtain ⟨ready, e⟩ | ⟨busy, out, e⟩ | ⟨busy, left, e⟩ := resolveWait_cases (s := (s.afterRead 2).latchStat st) st
  · by_cases last : s.phase = .wrWaitB
    · rw [e, leaveWait_last _ (by exact last)]; exact .completedWrite st last ready
    · rw [e, leaveWait_next _ (by exact last)]; exact .leftWait st wait last ready
  · rw [e, fail_running _ (by exact hp)]; exact .timedOut st wait busy out
  · rw [e]; exact .retried st wait busy left

/-- 41_ready_synchronizer.md R132, R133: the two steps of a probe. -/
theorem runStep_wait (wait : Phase.isWait s.phase = true) (h : engineStep s = .next t) :
    ∃ w, s.world.After w ∧ RunStep s w t := by
  have hp := ne_idle_of_isWait wait
  cases hpoll : s.poll with
  | sel =>
    rw [engineStep_wait_sel wait hpoll] at h
    cases h
    refine ⟨_, after_afterWrite s statusSelFrame, runStep_sendFrame hp _ ?_⟩
    rw [toRead_wait (by exact wait)]; exact .selected wait
  | read =>
    refine ⟨_, after_afterRead s 2, ?_⟩
    by_cases hr : s.readSucceeds 2 = true
    · obtain ⟨b0, b1, hb⟩ := two_of_readSucceeds hr
      rw [engineStep_wait_read wait hpoll hb] at h
      cases h
      exact runStep_resolveWait wait _
    · rw [engineStep_wait_error wait hpoll (fun e => hr (readSucceeds_iff.mpr e)), fail_running _ (by exact hp)] at h
      cases h
      exact .busError

/-- A frame other than a command's moves the sequencer to its next phase. -/
theorem runStep_frame (own : s.phase ∈ [Phase.rdLen, .rdSel, .wrData, .wrLen]) {own' : List Phase}
    (ho : s.phase ∈ own') (frame : List Byte) :
    RunStep s (s.afterWrite frame).world (s.sendFrame frame (State.advanceFrom own')) := by
  have hp : s.phase ≠ .idle ∧ Phase.isWait (Phase.next s.phase) = false := by
    revert own; cases s.phase <;> decide
  refine runStep_sendFrame hp.1 frame ?_
  rw [advanceFrom_own (by exact ho), State.enterPhase, if_neg (by simpa using hp.2)]
  exact .sent own

/-- A command frame enters the wait for its completion. -/
theorem runStep_command (own : s.phase ∈ [Phase.rdCmd, .wrCmd]) (m : ModuleId) (k : Byte) :
    RunStep s (s.afterWrite (commandFrame (moduleByte m) k)).world (s.sendCommand m k) := by
  have hp : s.phase ≠ .idle ∧ Phase.isWait (Phase.next s.phase) = true := by
    revert own; cases s.phase <;> decide
  refine runStep_sendFrame hp.1 _ ?_
  rw [advanceFrom_own (by exact own), State.enterPhase, if_pos (by exact hp.2)]
  exact .sentCommand own

/-- 44_engine_operations.md R168: the data read, taken or failed. -/
theorem runStep_data (last : s.phase = .rdData) (fits : byteLen s.rWc ≤ Config.capBytes) (h : engineStep s = .next t) :
    RunStep s (s.afterRead (byteLen s.rWc)).world t := by
  by_cases hr : s.readSucceeds (byteLen s.rWc) = true
  · obtain ⟨hb, len⟩ := bytes_of_readSucceeds hr
    rw [engineStep_rdData last fits hb len, State.storeResponse, if_pos (by exact last)] at h
    cases h
    exact .completedRead _ last len fits
  · rw [engineStep_rdData_error last fits (fun e => hr (readSucceeds_iff.mpr e)),
      fail_running _ (by simp [State.spoilRx, last])] at h
    cases h
    exact .dataError _ last (by simp) fits

/-- A step that answers a next state had a word count that fits where its phase needs one. -/
theorem fits_of_engineStep (hp : s.phase = .rdData ∨ s.phase = .wrData) (h : engineStep s = .next t) :
    byteLen s.rWc ≤ Config.capBytes := by
  by_contra hn
  have hn : Config.capBytes < byteLen s.rWc := Nat.lt_of_not_le hn
  obtain hp | hp := hp <;>
    simp only [engineStep, State.fetch, hp, State.fetchData, State.fetchPayload, if_pos hn, reduceCtorEq] at h

/-- A step that answers a next state had a legal module where its phase needs one. -/
theorem module_of_engineStep (hp : s.phase ∈ [Phase.rdCmd, .wrCmd]) (h : engineStep s = .next t) :
    ∃ m, ModuleId.ofByte s.rModule = some m := by
  refine Option.ne_none_iff_exists'.mp fun hn => ?_
  simp only [List.mem_cons, List.not_mem_nil, or_false] at hp
  obtain hp | hp := hp <;> simp [engineStep, State.fetch, hp, State.fetchCommand, hn] at h

/-- What a step of the engine in an operation can do. -/
theorem runStep_of_engineStep (hp : s.phase ≠ .idle) (h : engineStep s = .next t) :
    ∃ w, s.world.After w ∧ RunStep s w t := by
  have command (own : s.phase ∈ [Phase.rdCmd, .wrCmd]) (m : ModuleId) (k : Byte)
      (e : engineStep s = .next (s.sendCommand m k)) : ∃ w, s.world.After w ∧ RunStep s w t := by
    rw [e] at h; cases h
    exact ⟨_, after_afterWrite s _, runStep_command own m k⟩
  have frame (own : s.phase ∈ [Phase.rdLen, .rdSel, .wrData, .wrLen]) (own' : List Phase) (ho : s.phase ∈ own')
      (f : List Byte) (e : engineStep s = .next (s.sendFrame f (State.advanceFrom own'))) :
      ∃ w, s.world.After w ∧ RunStep s w t := by
    rw [e] at h; cases h
    exact ⟨_, after_afterWrite s _, runStep_frame own ho f⟩
  cases hph : s.phase with
  | idle => exact absurd hph hp
  | rdWaitA => exact runStep_wait (by rw [hph]; rfl) h
  | rdWaitB => exact runStep_wait (by rw [hph]; rfl) h
  | wrWaitA => exact runStep_wait (by rw [hph]; rfl) h
  | wrWaitB => exact runStep_wait (by rw [hph]; rfl) h
  | rdLen => exact frame (by simp [hph]) _ (by simp [hph]) _ (engineStep_rdLen hph)
  | rdSel => exact frame (by simp [hph]) _ (by simp [hph]) _ (engineStep_rdSel hph)
  | wrLen => exact frame (by simp [hph]) _ (by simp [hph]) _ (engineStep_wrLen hph)
  | wrData =>
    exact frame (by simp [hph]) _ (by simp [hph]) _ (engineStep_wrData hph (fits_of_engineStep (.inr hph) h))
  | rdCmd =>
    obtain ⟨m, hm⟩ := module_of_engineStep (by simp [hph]) h
    exact command (by simp [hph]) _ _ (engineStep_rdCmd hph hm)
  | wrCmd =>
    obtain ⟨m, hm⟩ := module_of_engineStep (by simp [hph]) h
    exact command (by simp [hph]) _ _ (engineStep_wrCmd hph hm)
  | rdData => exact ⟨_, after_afterRead s _, runStep_data hph (fits_of_engineStep (.inl hph) h) h⟩

/-! ### The idle engine -/

/-- `t` is `s` but for what probes write: the status latch, the wait's registers, with `TRIES` at most `b`, and the
world. -/
structure OnlyProbed (b : Nat) (s t : State) : Prop where
  eq : t = { s with stat := t.stat, sv := t.sv, poll := t.poll, sync := t.sync, tries := t.tries, world := t.world }
  sv : s.sv = true → t.sv = true
  tries : t.tries.toNat ≤ b
  world : s.world.After t.world

theorem OnlyProbed.trans {b' : Nat} (h : OnlyProbed b' s t) (h' : OnlyProbed b t u) : OnlyProbed b s u where
  eq := by rw [h'.eq, h.eq]
  sv hs := h'.sv (h.sv hs)
  tries := h'.tries
  world := h.world.trans h'.world

/-- Only the world has changed. -/
theorem onlyProbed_world (ht : s.tries.toNat ≤ b) {w : World} (hw : s.world.After w) :
    OnlyProbed b s { s with world := w } := ⟨rfl, id, ht, hw⟩

/-- Every next state of the idle engine: a request is refused or accepted (44_engine_operations.md R160), or a primitive
called on its own runs, or nothing is asked. -/
inductive IdleStep (b : Nat) (s : State) : State → Prop where
  | refused (w : World) (hw : s.world.After w) (k : ResKind) (hk : k = .illegalRequest ∨ k = .capacityError) :
      IdleStep b s (State.refuseRequest k { s with world := w })
  | accepted (w : World) (hw : s.world.After w) (op : BitVec 2) (m c : Byte) (wc : Half) (hop : op.toNat < 2)
      (hm : ModuleId.ofByte m ≠ none) (hwc : byteLen wc ≤ Config.capBytes) :
      IdleStep b s (State.acceptRequest op m c wc { s with world := w })
  | probed {t : State} (h : OnlyProbed b s t) : IdleStep b s t

/-- A step after the call was taken is a step from the state before. -/
theorem IdleStep.of_after {w : World} (hw : s.world.After w) (h : IdleStep b { s with world := w } t) :
    IdleStep b s t := by
  cases h with
  | refused w' hw' k hk => exact .refused w' (hw.trans hw') k hk
  | accepted w' hw' op m c wc hop hm hwc => exact .accepted w' (hw.trans hw') op m c wc hop hm hwc
  | probed h => exact .probed ⟨h.eq, h.sv, h.tries, hw.trans h.world⟩

/-- The start checks refuse with one of two kinds (44_engine_operations.md R161). -/
theorem checkRequest_kinds (op : BitVec 2) (m : Byte) (wc : Half) :
    checkRequest op m wc = .ok ∨ checkRequest op m wc = .illegalRequest ∨ checkRequest op m wc = .capacityError := by
  unfold checkRequest; split_ifs <;> simp

/-- The start step takes the request off the port, whatever stands there (10_state.md R21). -/
theorem idleStep_startStep (hp : s.phase = .idle) (op : BitVec 2) (m c : Byte) (wc : Half) (q : Option ReqWord) :
    IdleStep b s (State.startStep op m c wc { s with hreq := q }) := by
  obtain ⟨k, hk, hc, e⟩ | ⟨hop, hm, hwc, e⟩ := startStep_cases (s := { s with hreq := q }) op m c wc hp
  · have hk : k = .illegalRequest ∨ k = .capacityError := by
      subst hc; exact (checkRequest_kinds op m wc).resolve_left hk
    rw [e]; exact .refused s.world (.refl _) k hk
  · rw [e]; exact .accepted s.world (.refl _) op m c wc hop hm hwc

/-- Outside an operation a frame goes on the bus and moves nothing (log entries 9, 10). -/
theorem sendFrame_idle (hp : s.phase = .idle) (frame : List Byte) {k : State → State}
    (hk : k (s.afterWrite frame) = s.afterWrite frame) : s.sendFrame frame k = s.afterWrite frame := by
  obtain e | e := sendFrame_cases (s := s) frame k
  · rw [e, hk]
  · rw [e, fail_idle _ (by exact hp)]

theorem onlyProbed_sendFrame (hp : s.phase = .idle) (ht : s.tries.toNat ≤ b) (frame : List Byte) {k : State → State}
    (hk : k (s.afterWrite frame) = s.afterWrite frame) : OnlyProbed b s (s.sendFrame frame k) := by
  rw [sendFrame_idle hp frame hk]; exact onlyProbed_world ht (after_afterWrite s frame)

theorem onlyProbed_advanceFrom (hp : s.phase = .idle) (ht : s.tries.toNat ≤ b) (frame : List Byte) {own : List Phase}
    (ho : Phase.idle ∉ own) : OnlyProbed b s (s.sendFrame frame (State.advanceFrom own)) :=
  onlyProbed_sendFrame hp ht frame (advanceFrom_other (by rwa [afterWrite_phase, hp]))

theorem after_probeTransactions (s : State) : s.world.After ((s.afterWrite statusSelFrame).afterRead 2).world :=
  (after_afterWrite s _).trans (after_afterRead _ 2)

/-- The state a probe leaves, before the error entry. -/
theorem onlyProbed_probe (ht : s.tries.toNat ≤ b) : OnlyProbed b s s.probe.2 := by
  obtain ⟨-, e⟩ | ⟨-, -, e⟩ | ⟨b0, b1, -, -, e⟩ := probe_cases s <;> rw [e]
  · exact onlyProbed_world ht (after_afterWrite s _)
  · exact onlyProbed_world ht (after_probeTransactions s)
  · exact ⟨rfl, fun _ => rfl, ht, after_probeTransactions s⟩

theorem OnlyProbed.phase (h : OnlyProbed b s t) : t.phase = s.phase := by rw [h.eq]

theorem onlyProbed_probeOrFail (hp : s.phase = .idle) (ht : s.tries.toNat ≤ b) : OnlyProbed b s s.probeOrFail := by
  have h := onlyProbed_probe ht
  have e : s.probeOrFail = s.probe.2 := by
    rcases hr : s.probe with ⟨_ | st, v⟩ <;> simp only [State.probeOrFail, hr]
    exact fail_idle _ (by rw [hr] at h; exact h.phase.trans hp)
  rwa [e]

/-- A wait writes its registers beside what its probes write. -/
theorem OnlyProbed.setWait (h : OnlyProbed b s t) (p : Poll) (q : Sync) {n : Byte} (hn : n.toNat ≤ b) :
    OnlyProbed b s { t with poll := p, sync := q, tries := n } :=
  ⟨by rw [h.eq], h.sv, hn, h.world⟩

theorem probe_tries (s : State) : s.probe.2.tries = s.tries := by
  obtain ⟨-, e⟩ | ⟨-, -, e⟩ | ⟨b0, b1, -, -, e⟩ := probe_cases s <;> rw [e] <;> rfl

/-- 41_ready_synchronizer.md R130: one turn of the loop of `WAIT_READY` ends it, or goes on with one try less. -/
theorem waitLoop_cases (n : Nat) (hp : s.phase = .idle) :
    (∃ p q, (State.waitLoop n s).2 = { s.probe.2 with poll := p, sync := q }) ∨
    (∃ k, n = k + 1 ∧ State.waitLoop n s =
      State.waitLoop k { s.probe.2 with poll := .sel, tries := s.probe.2.tries - 1#8 }) := by
  have hp' : s.probe.2.phase = .idle := (onlyProbed_probe le_rfl).phase.trans hp
  rcases hr : s.probe with ⟨_ | st, v⟩ <;> rw [hr] at hp'
  · exact .inl ⟨s.pollAfter, v.sync, by rw [State.waitLoop, hr]; exact fail_idle _ hp'⟩
  · by_cases ready : DeviceStatus.isReady st = true
    · exact .inl ⟨.read, .ready, by rw [State.waitLoop, hr]; simp [ready]⟩
    · cases n with
      | zero => exact .inl ⟨.read, .timedOut, by rw [State.waitLoop, hr]; simp [ready]⟩
      | succ k => exact .inr ⟨k, rfl, by rw [State.waitLoop, hr]; simp [ready]⟩

/-- The probes of a `WAIT_READY` called on its own. `TRIES` only falls: the loop has at most `TRIES` tries left. -/
theorem onlyProbed_waitLoop (n : Nat) (hp : s.phase = .idle) (hn : n ≤ s.tries.toNat) (ht : s.tries.toNat ≤ b) :
    OnlyProbed b s (State.waitLoop n s).2 := by
  induction n using Nat.strong_induction_on generalizing s with
  | _ n ih =>
    have h := onlyProbed_probe ht
    obtain ⟨p, q, e⟩ | ⟨k, rfl, e⟩ := waitLoop_cases n hp <;> rw [e]
    · exact h.setWait p q h.tries
    · have hv : (s.probe.2.tries - 1#8).toNat = s.tries.toNat - 1 := by rw [probe_tries]; bv_omega
      refine (h.setWait .sel s.probe.2.sync (n := s.probe.2.tries - 1#8) (by omega)).trans
        (ih k (by omega) (h.phase.trans hp) ?_ ?_) <;> simp only [hv] <;> omega

theorem onlyProbed_waitReady (hp : s.phase = .idle) {n : Byte} (hn : n.toNat ≤ b) :
    OnlyProbed b s (s.waitReady n).2 :=
  (OnlyProbed.mk (b := b) (t := { s with sync := .polling, tries := n, poll := .sel }) rfl id hn (.refl _)).trans
    (onlyProbed_waitLoop n.toNat hp le_rfl hn)

theorem OnlyProbed.giveResult (h : OnlyProbed b s t) (r : UnitOut) : OnlyProbed b s (t.giveResult r) :=
  h.trans (onlyProbed_world h.tries ⟨rfl, rfl, fun _ h => h⟩)

/-- Outside an operation a status response is latched and nothing more follows (log entry 10). -/
theorem onlyProbed_receiveStatus (hp : s.phase = .idle) (ht : s.tries.toNat ≤ b) (st : DeviceStatus) :
    OnlyProbed b s (State.receiveStatus st s) := by
  rw [State.receiveStatus, if_neg (by simp [hp, Phase.isWait])]
  exact ⟨rfl, fun _ => rfl, ht, .refl _⟩

/-- A meaning that answers a next state only behind a check answers the one of its success. -/
theorem next_of_guard {c : Prop} [Decidable c] {v : State} {o : Host.Outcome State Fault Refusal}
    (h : (if c then Host.Outcome.next v else o) = .next t) (ho : o ≠ .next t) : t = v := by
  split_ifs at h
  · cases h; rfl
  · exact absurd h ho

/-- What any instruction does while no operation runs. -/
theorem idleStep_of_exec (hp : s.phase = .idle) (ht : s.tries.toNat ≤ b) {i : Instr}
    (hi : ∀ n, i = .waitReady n → n.toNat ≤ b) (h : exec i s = .next t) : IdleStep b s t := by
  have result (r : UnitOut) : IdleStep b s (s.giveResult r) :=
    .probed (OnlyProbed.giveResult (onlyProbed_world ht (.refl _)) r)
  have command (m : ModuleId) (k : Byte) : IdleStep b s (s.sendCommand m k) :=
    .probed (onlyProbed_advanceFrom hp ht _ (by decide))
  cases i with
  | readData m c wc => cases h; exact idleStep_startStep hp _ _ _ _ s.hreq
  | writeData m c wc => cases h; exact idleStep_startStep hp _ _ _ _ s.hreq
  | hreqRun m c wc => cases h; exact idleStep_startStep hp _ _ _ _ s.hreq
  | hreqOp3 m c wc => cases h; exact idleStep_startStep hp _ _ _ _ s.hreq
  | statusSel =>
    cases h
    exact .probed (onlyProbed_sendFrame hp ht _ (by simp [State.toRead, hp, Phase.isWait]))
  | dataSel => cases h; exact .probed (onlyProbed_advanceFrom hp ht _ (by decide))
  | lenRd len => cases h; exact .probed (onlyProbed_advanceFrom hp ht _ (by decide))
  | lenWr len =>
    rw [next_of_guard h nofun]; exact .probed (onlyProbed_advanceFrom hp ht _ (by decide))
  | cmdAgc k => cases h; exact command ..
  | cmdSys k => cases h; exact command ..
  | cmdVid k => cases h; exact command ..
  | cmdOem k => cases h; exact command ..
  | cmdRad k => cases h; exact command ..
  | dataWr p => rw [next_of_guard h nofun]; exact .probed (onlyProbed_advanceFrom hp ht _ (by decide))
  | statusRsp x y => cases h; exact .probed (onlyProbed_receiveStatus hp ht _)
  | dataRsp p =>
    simp only [exec, execDataRsp, State.storeResponse, hp, reduceCtorEq, if_false] at h
    split_ifs at h
    cases h; exact .probed (onlyProbed_world ht (.refl _))
  | probe => cases h; exact .probed ((onlyProbed_probeOrFail hp ht).giveResult _)
  | waitReady n => cases h; exact .probed ((onlyProbed_waitReady hp (hi n rfl)).giveResult _)
  | swap16 v => cases h; exact result _
  | decodeStatus x y => cases h; exact result _
  | encCmd m c op => cases h; exact result _
  | encLenRd wc => cases h; exact result _
  | encLenWr wc => cases h; exact result _
  | packWrite d wc => rw [next_of_guard h nofun]; exact result _
  | unpackRead r wc => rw [next_of_guard h nofun]; exact result _

/-- What a step of the idle engine can do. -/
theorem idleStep_of_engineStep (hp : s.phase = .idle) (ht : s.tries.toNat ≤ b)
    (hc : ∀ n, s.world.call = some (.waitReady n) → n.toNat ≤ b) (h : engineStep s = .next t) : IdleStep b s t := by
  cases hq : s.hreq with
  | some q =>
    rw [engineStep_request hp hq] at h
    cases h
    split_ifs
    · exact .refused s.world (.refl _) .illegalRequest (.inl rfl)
    · exact idleStep_startStep hp _ _ _ _ none
  | none =>
    cases hcall : s.world.call with
    | some i =>
      rw [engineStep_call hp hq hcall] at h
      have hw : s.world.After { s.world with call := none } := ⟨rfl, rfl, nofun⟩
      exact .of_after hw (idleStep_of_exec hp ht (fun n e => hc n (e ▸ hcall)) h)
    | none =>
      rw [engineStep_idle hp hq hcall] at h
      cases h
      exact .probed (onlyProbed_world ht (.refl _))

/-- A step of the engine leaves the host's accesses and its log, whatever it runs. -/
theorem after_of_engineStep (h : engineStep s = .next t) : s.world.After t.world := by
  by_cases hp : s.phase = .idle
  · cases idleStep_of_engineStep (b := 255) hp (by bv_omega) (fun n _ => by bv_omega) h with
    | refused w hw => exact hw
    | accepted w hw => exact hw
    | probed h => exact h.world
  · obtain ⟨w, hw, hr⟩ := runStep_of_engineStep hp h
    cases hr <;> exact hw

end EngineSteps

/-! ## The safety of the sequencer -/

section Safety

variable {s t : State} {w : World}

/-- 10_state.md R37: the edges of a step in an operation. -/
theorem RunStep.phase (h : RunStep s w t) :
    (Phase.isWait s.phase = true ∧ t.phase = s.phase) ∨ t.phase = Phase.next s.phase ∨ t.phase = .idle := by
  cases h with
  | selected wait => exact .inl ⟨wait, rfl⟩
  | retried st wait => exact .inl ⟨wait, rfl⟩
  | leftWait => exact .inr (.inl rfl)
  | sent => exact .inr (.inl rfl)
  | sentCommand => exact .inr (.inl rfl)
  | _ => exact .inr (.inr rfl)

/-- 10_state.md R22 to R26: no step of an operation writes the latches, `TXBUF` or the port. -/
theorem RunStep.latches (h : RunStep s w t) :
    t.rOp = s.rOp ∧ t.rModule = s.rModule ∧ t.rCmdid = s.rCmdid ∧ t.rWc = s.rWc ∧ t.txbuf = s.txbuf ∧
    t.build = s.build ∧ t.hreq = s.hreq := by
  cases h <;> exact ⟨rfl, rfl, rfl, rfl, rfl, rfl, rfl⟩

/-- 10_state.md R30: `SV` is only ever set. -/
theorem RunStep.sv (h : RunStep s w t) (hs : s.sv = true) : t.sv = true := by
  cases h <;> simp only [hs]

/-- 10_state.md R27, R41: only the data read writes `RXBUF` and `RES_LEN`. -/
theorem RunStep.received (h : RunStep s w t) (hn : s.phase ≠ .rdData) : t.rxbuf = s.rxbuf ∧ t.resLen = s.resLen := by
  cases h with
  | completedRead p last => exact absurd last hn
  | dataError p last => exact absurd last hn
  | _ => exact ⟨rfl, rfl⟩

/-- 10_state.md R40: only the last wait of a `WRITE_DATA` writes `RES_STATUS`. -/
theorem RunStep.resStatus (h : RunStep s w t) (hn : s.phase ≠ .wrWaitB) : t.resStatus = s.resStatus := by
  cases h with
  | completedWrite st last => exact absurd last hn
  | _ => rfl

/-- 10_state.md R37: the edges of a step of the idle engine. -/
theorem IdleStep.phase {b : Nat} (hp : s.phase = .idle) (h : IdleStep b s t) :
    t.phase = .idle ∨ t.phase = .rdWaitA ∨ t.phase = .wrWaitA := by
  cases h with
  | refused => exact .inl hp
  | accepted w hw op => rw [State.acceptRequest, enterWait_phase]; split_ifs <;> simp
  | probed h => exact .inl (h.phase.trans hp)

/-- Settles O37, by the edges of a step in an operation and of the idle engine. -/
theorem phaseMovesOnlyAlongItsOperation : Obligations.PhaseMovesOnlyAlongItsOperation := by
  intro s t h
  by_cases hp : s.phase = .idle
  · have edges := (idleStep_of_engineStep (b := 255) hp (by bv_omega) (fun n _ => by bv_omega) h).phase hp
    exact ⟨fun _ => edges, by simp [hp, Phase.isWait], fun hn => absurd hp hn⟩
  · obtain ⟨w, -, hr⟩ := runStep_of_engineStep hp h
    refine ⟨fun hi => absurd hi hp, fun _ => hr.phase.imp_left And.right, fun _ hn => ?_⟩
    exact hr.phase.resolve_left fun ⟨wait, _⟩ => by simp [wait] at hn

/-- Settles O40, from what a step in an operation can write. -/
theorem runningOperationKeepsLatchesAndTxbuf : Obligations.RunningOperationKeepsLatchesAndTxbuf := by
  intro s t hp h
  obtain ⟨w, -, hr⟩ := runStep_of_engineStep hp h
  obtain ⟨op, module, cmdid, wc, tx, build, hreq⟩ := hr.latches
  exact ⟨op, module, cmdid, wc, tx, build, hreq, hr.sv, hr.received, hr.resStatus⟩

end Safety

/-! ## The invariant of 10_state.md R57 -/

section Invariant

variable {s t : State}

/-- The block after reset meets the invariant, whatever the build and the calls of primitives it admits. -/
theorem inv_afterReset (b : Build) (w : World)
    (hc : ∀ n, w.call = some (.waitReady n) → n.toNat ≤ b.retryBudget.toNat) : State.Inv (State.afterReset b w) where
  busyIff := by simp [State.afterReset]
  busyNotDone := by simp [State.afterReset]
  readOp := nofun
  writeOp := nofun
  moduleLegal h := absurd rfl h
  countFits h := absurd rfl h
  triesBound := Nat.zero_le _
  callBound := hc
  lenBound := Nat.zero_le _
  lenEven := rfl
  lenOfRead := nofun
  svOfDone := nofun
  svPast := nofun
  lenOnlyRead h := absurd rfl h
  statusOnlyWrite h := absurd rfl h
  flagsOnlyNotReady h := absurd rfl h
  flagsNotReadyPair := by simp [State.afterReset]
  txWf := rfl
  rxWf := rfl

/-- Settles O53: no primitive has been called. -/
theorem resetMeetsTheInvariant : Obligations.ResetMeetsTheInvariant := inv_afterReset _ _ nofun

/-- Nothing of the invariant is about the world but the primitive called on its own. -/
theorem State.Inv.withWorld (hi : s.Inv) {w : World} (hw : ∀ i, w.call = some i → s.world.call = some i) :
    State.Inv { s with world := w } :=
  { hi with callBound := fun n h => hi.callBound n (hw _ h) }

theorem State.Inv.latchStat (hi : s.Inv) (st : DeviceStatus) : State.Inv (s.latchStat st) :=
  { hi with svOfDone := fun _ _ => rfl, svPast := fun _ => rfl }

/-- In an operation the results are cleared: no request has ended since it began. -/
theorem State.Inv.running (hi : s.Inv) (hp : s.phase ≠ .idle) :
    s.busy = true ∧ s.done = false ∧ s.resLen = 0#16 ∧ s.resStatus = 0#8 ∧ s.resFlags = 0#2 := by
  have busy := hi.busyIff.mpr hp
  have done : ¬ s.done = true := fun h => hi.busyNotDone ⟨busy, h⟩
  exact ⟨busy, by simpa using done, by_contra fun h => done (hi.lenOnlyRead h).1,
    by_contra fun h => done (hi.statusOnlyWrite h).1, by_contra fun h => done (hi.flagsOnlyNotReady h).1⟩

/-- 10_state.md R37: `PHASE` goes on in the operation's list. -/
theorem State.Inv.advance (hi : s.Inv) (hn : Phase.next s.phase ≠ .idle) (hsv : s.sv = true) :
    State.Inv { s with phase := Phase.next s.phase } := by
  have hp : s.phase ≠ .idle := fun h => hn (by rw [h]; rfl)
  have read : Phase.ofRead (Phase.next s.phase) = true → Phase.ofRead s.phase = true :=
    by cases s.phase <;> decide
  have write : Phase.ofWrite (Phase.next s.phase) = true → Phase.ofWrite s.phase = true :=
    by cases s.phase <;> decide
  exact { hi with
    busyIff := iff_of_true (hi.running hp).1 hn
    readOp := fun h => hi.readOp (read h)
    writeOp := fun h => hi.writeOp (write h)
    moduleLegal := fun _ => hi.moduleLegal hp
    countFits := fun _ => hi.countFits hp
    svPast := fun _ => hsv }

/-- An operation ends with its results cleared: `OK` only after a `WRITE_DATA` (R57 (g)), with `SV` as R57 (h) asks. -/
theorem State.Inv.ended (hi : s.Inv) (hp : s.phase ≠ .idle) (k : ResKind)
    (hlen : k = .ok → s.rOp ≠ 0#2) (hsv : k = .ok ∨ k = .notReady → s.sv = true) :
    State.Inv { s with resKind := k, busy := false, done := true, phase := .idle } := by
  obtain ⟨-, -, len, status, flags⟩ := hi.running hp
  exact { hi with
    busyIff := by simp
    busyNotDone := by simp
    readOp := nofun
    writeOp := nofun
    moduleLegal := fun h => absurd rfl h
    countFits := fun h => absurd rfl h
    lenOfRead := fun _ ok op => absurd op (hlen ok)
    svOfDone := fun _ h => hsv h
    svPast := nofun
    lenOnlyRead := fun h => absurd len h
    statusOnlyWrite := fun h => absurd status h
    flagsOnlyNotReady := fun h => absurd flags h }

/-- 10_state.md R42: a pair that is not ready never reads as the ready condition. -/
theorem flagsOf_ne_ready {st : DeviceStatus} (h : DeviceStatus.isReady st = false) :
    flagsOf st.booted st.busy ≠ 2#2 := by
  have pair : ∀ booted busy : Bool, (booted && !busy) = false → flagsOf booted busy ≠ 2#2 := by decide
  exact pair st.booted st.busy h

theorem even_byteLen (wc : Half) : byteLen wc % 2 = 0 := by simp [byteLen]

/-- What a step in an operation can do keeps the invariant. -/
theorem State.Inv.runStep {w : World} (hi : s.Inv) (hp : s.phase ≠ .idle) (hw : s.world.After w) (h : RunStep s w t) :
    t.Inv := by
  have hi' : State.Inv { s with world := w } := hi.withWorld hw.call
  cases h with
  | selected => exact { hi' with }
  | retried st wait busy left =>
    exact { hi'.latchStat st with
      triesBound := by
        have := hi.triesBound
        show (s.tries - 1#8).toNat ≤ s.build.retryBudget.toNat
        bv_omega }
  | timedOut st wait busy out =>
    exact { (hi'.latchStat st).ended hp .notReady nofun fun _ => rfl with
      flagsOnlyNotReady := fun _ => ⟨rfl, rfl⟩
      flagsNotReadyPair := flagsOf_ne_ready busy }
  | leftWait st wait more ready =>
    have hn : Phase.next s.phase ≠ .idle := by revert wait more; cases s.phase <;> decide
    exact { (hi'.latchStat st).advance hn rfl with }
  | completedWrite st last ready =>
    have op : s.rOp = 1#2 := hi.writeOp (by rw [last]; rfl)
    exact { (hi'.latchStat st).ended hp .ok (fun _ => by simp [op]) fun _ => rfl with
      statusOnlyWrite := fun _ => ⟨rfl, rfl, op⟩ }
  | sent own =>
    have hn : Phase.next s.phase ≠ .idle ∧ Phase.pastFirstWait s.phase = true := by
      revert own; cases s.phase <;> decide
    exact hi'.advance hn.1 (hi.svPast hn.2)
  | sentCommand own =>
    have hn : Phase.next s.phase ≠ .idle ∧ Phase.pastFirstWait s.phase = true := by
      revert own; cases s.phase <;> decide
    exact { hi'.advance hn.1 (hi.svPast hn.2) with triesBound := le_rfl }
  | completedRead p last len fits =>
    have op : s.rOp = 0#2 := hi.readOp (by rw [last]; rfl)
    have sv : s.sv = true := hi.svPast (by rw [last]; rfl)
    obtain ⟨-, -, -, status, flags⟩ := hi.running hp
    have resLen : (BitVec.ofNat 16 p.length).toNat = byteLen s.rWc := by
      have : byteLen s.rWc ≤ 1024 := fits
      rw [len, BitVec.toNat_ofNat]; omega
    exact { hi'.ended hp .busError nofun nofun with
      lenBound := resLen.trans_le fits
      lenEven := by rw [resLen]; exact even_byteLen _
      lenOfRead := fun _ _ _ => resLen
      svOfDone := fun _ _ => sv
      lenOnlyRead := fun _ => ⟨rfl, rfl, op⟩
      statusOnlyWrite := fun h => absurd status h
      flagsOnlyNotReady := fun h => absurd flags h
      rxWf := Memory.wf_writeRun p (by rw [len, Nat.zero_add]; exact fits) hi.rxWf }
  | busError => exact hi'.ended hp .busError nofun nofun
  | dataError p last len fits =>
    exact { hi'.ended hp .busError nofun nofun with
      rxWf := Memory.wf_writeRun p (by rw [len, Nat.zero_add]; exact fits) hi.rxWf }

/-- A refused request has ended, with cleared results (44_engine_operations.md R160). -/
theorem State.Inv.refuseRequest (hi : s.Inv) (hp : s.phase = .idle) {k : ResKind}
    (hk : k = .illegalRequest ∨ k = .capacityError) : State.Inv (s.refuseRequest k) :=
  { hi with
    busyNotDone := fun h => hi.busyIff.mp h.1 hp
    lenBound := Nat.zero_le _
    lenEven := rfl
    lenOfRead := fun _ ok => by obtain rfl | rfl := hk <;> cases ok
    svOfDone := fun _ h => by obtain rfl | rfl := hk <;> simp [State.refuseRequest] at h
    lenOnlyRead := fun h => absurd rfl h
    statusOnlyWrite := fun h => absurd rfl h
    flagsOnlyNotReady := fun h => absurd rfl h
    flagsNotReadyPair := by simp [State.refuseRequest] }

/-- An accepted request runs, with legal latches and cleared results (44_engine_operations.md R160). -/
theorem State.Inv.acceptRequest (hi : s.Inv) {op : BitVec 2} {m c : Byte} {wc : Half} (hop : op.toNat < 2)
    (hm : ModuleId.ofByte m ≠ none) (hwc : byteLen wc ≤ Config.capBytes) :
    State.Inv (s.acceptRequest op m c wc) := by
  have hcount : wc.toNat ≤ Config.capWords := Nat.le_of_mul_le_mul_left (show 2 * wc.toNat ≤ 2 * 512 from hwc) two_pos
  have hop' : op = 0#2 ∨ op = 1#2 := by revert hop; revert op; decide
  exact { hi with
    busyIff := by obtain rfl | rfl := hop' <;> simp [State.acceptRequest]
    busyNotDone := nofun
    readOp := by obtain rfl | rfl := hop' <;> simp [State.acceptRequest, Phase.ofRead]
    writeOp := by obtain rfl | rfl := hop' <;> simp [State.acceptRequest, Phase.ofWrite]
    moduleLegal := fun _ => hm
    countFits := fun _ => hcount
    triesBound := le_rfl
    lenBound := Nat.zero_le _
    lenEven := rfl
    lenOfRead := nofun
    svOfDone := nofun
    svPast := by obtain rfl | rfl := hop' <;> simp [State.acceptRequest, Phase.pastFirstWait]
    lenOnlyRead := fun h => absurd rfl h
    statusOnlyWrite := fun h => absurd rfl h
    flagsOnlyNotReady := fun h => absurd rfl h
    flagsNotReadyPair := by simp [State.acceptRequest] }

/-- What the idle engine can do keeps the invariant. -/
theorem State.Inv.idleStep (hi : s.Inv) (hp : s.phase = .idle) (h : IdleStep s.build.retryBudget.toNat s t) :
    t.Inv := by
  cases h with
  | refused w hw k hk => exact (hi.withWorld hw.call).refuseRequest hp hk
  | accepted w hw op m c wc hop hm hwc => exact (hi.withWorld hw.call).acceptRequest hop hm hwc
  | probed h =>
    rw [h.eq]
    exact { hi.withWorld h.world.call with
      triesBound := h.tries
      svOfDone := fun d k => h.sv (hi.svOfDone d k)
      svPast := fun past => h.sv (hi.svPast past) }

/-- Every step of the engine keeps the invariant. -/
theorem State.Inv.engineStep (hi : s.Inv) (h : engineStep s = .next t) : t.Inv := by
  by_cases hp : s.phase = .idle
  · exact hi.idleStep hp (idleStep_of_engineStep hp hi.triesBound hi.callBound h)
  · obtain ⟨w, hw, hr⟩ := runStep_of_engineStep hp h
    exact hi.runStep hp hw hr

/-- Every access of the host, and the reset, keeps the invariant. -/
theorem State.Inv.serve (hi : s.Inv) (a : HostAct) : State.Inv (s.serve a) := by
  cases a with
  | pass => exact hi
  | reset => exact inv_afterReset _ _ hi.callBound
  | writeHreq q => exact { hi with }
  | writeTx i b => exact { hi with txWf := Memory.wf_write b i.isLt hi.txWf }
  | readTx i => exact { hi with }
  | readRx i => exact { hi with }
  | readHstat => exact { hi with }
  | readKind => exact { hi with }
  | readStatus => exact { hi with }
  | readLen => exact { hi with }
  | readFlags => exact { hi with }
  | readStat => exact { hi with }
  | readSync => exact { hi with }
  | swap16 v => exact { hi with }

/-- Settles O54: a step is the engine's, or an access of the host followed or not by the engine's, and each keeps the
invariant. -/
theorem everyStepKeepsTheInvariant : Obligations.EveryStepKeepsTheInvariant := by
  intro s t hi h
  have served (a : HostAct) (rest : List HostAct) : State.Inv ((s.withHost rest).serve a) :=
    .serve (s := s.withHost rest) (hi.withWorld fun _ h => h) a
  obtain e | ⟨a, -, rest, -, ⟨-, e⟩ | ⟨-, e⟩⟩ := step_cases s <;> rw [e] at h
  · exact hi.engineStep h
  · exact (served a rest).engineStep h
  · cases h; exact served a rest

end Invariant

/-! ## The host's turn -/

section HostTurn

variable {s t : State} {a : HostAct} {rest : List HostAct}

/-- 10_state.md R46: what is never held, listed. -/
theorem neverHeld_eq_false (ha : a ∉ [HostAct.pass, .reset, .readHstat]) : HostAct.neverHeld a = false := by
  cases a with
  | pass | reset | readHstat => simp at ha
  | _ => rfl

/-- An access that nothing holds takes effect; the engine follows after a write of `HREQ` or a pass only. -/
theorem step_serve (hh : s.world.host = a :: rest) (ha : (HostAct.neverHeld a || s.accepting) = true)
    (hf : HostAct.engineFollows a = false) : step s = .next ((s.withHost rest).serve a) := by
  simp only [step, State.hostTurn, hh, if_pos ha, hf]

/-- 10_state.md R46: with no operation and no request on the port nothing is held. -/
theorem step_serve_idle (hb : s.busy = false) (hq : s.hreq = none) (hh : s.world.host = a :: rest)
    (hf : HostAct.engineFollows a = false) : step s = .next ((s.withHost rest).serve a) :=
  step_serve hh (by simp [State.accepting, hb, hq]) hf

/-- 10_state.md R46: while an operation runs, what the step does is decided by what stands behind the held access. -/
theorem step_held (hb : s.busy = true) (hh : s.world.host = a :: rest) (ha : a ∉ [HostAct.pass, .reset, .readHstat])
    {u : State} {engine : Bool} (hw : s.whileHeld a rest = (u, engine)) :
    step s = if engine then engineStep u else .next u := by
  have turn : s.hostTurn = (u, engine) := by
    rw [hostTurn_held hh (neverHeld_eq_false ha) (by simp [State.accepting, hb]), hw]
  cases engine <;> simp [step, turn]

/-- An access behind the held one that is held too waits as well. -/
theorem whileHeld_held (h : ∀ e ∈ rest.head?, e ∉ [HostAct.pass, .reset, .readHstat]) :
    s.whileHeld a rest = (s, true) := by
  cases rest with
  | nil => rfl
  | cons e more => simp [State.whileHeld, neverHeld_eq_false (h e rfl)]

/-- Settles O43: the engine's step leaves the host's accesses and its log. -/
theorem hostAccessesAreHeldWhileBusy : Obligations.HostAccessesAreHeldWhileBusy := by
  intro a rest s t hb hh ha h
  refine ⟨fun held => ?_, ?_, ?_⟩
  · have h : engineStep s = .next t := (step_held hb hh ha (whileHeld_held held)).symm.trans h
    have w := after_of_engineStep h
    exact ⟨h, w.host.trans hh, w.hostLog⟩
  · rintro more rfl
    have h : engineStep (s.withHost (a :: more)) = .next t := (step_held hb hh ha rfl).symm.trans h
    have w := after_of_engineStep h
    exact ⟨h, w.host, w.hostLog⟩
  · rintro more rfl
    rw [step_held hb hh ha rfl] at h
    cases h; rfl

/-- Settles O44: a read of `HSTAT` is never held. -/
theorem hstatReadsAreNeverHeld : Obligations.HstatReadsAreNeverHeld := by
  intro rest s hh
  have bits : ∀ busy done sv : Bool, let v := BitVec.ofNat 8 (busy.toNat + 2 * done.toNat + 4 * sv.toNat)
      v.getLsbD 0 = busy ∧ v.getLsbD 1 = done ∧ v.getLsbD 2 = sv ∧ v.toNat < 8 := by decide
  exact ⟨s.hstat, step_serve hh rfl rfl, bits s.busy s.done s.sv⟩

/-- 43_payload_transfer.md R154: `SWAP16` on numbers. -/
theorem swapBytes_eq (v : Half) : swapBytes v = BitVec.ofNat 16 ((v.toNat % 256) * 256 + v.toNat / 256) := by
  have hv := v.isLt
  have high : (v.toNat % 256) <<< 8 % 65536 = (v.toNat % 256) <<< 8 := by rw [Nat.shiftLeft_eq]; omega
  have low : v.toNat / 256 % 256 = v.toNat / 256 := by omega
  have sum : (v.toNat % 256) <<< 8 ||| v.toNat / 256 = (v.toNat % 256 * 256 + v.toNat / 256) % 65536 := by
    rw [← Nat.shiftLeft_add_eq_or_of_lt (by omega), Nat.shiftLeft_eq]; omega
  apply BitVec.eq_of_toNat_eq
  simp [swapBytes, Nat.and_two_pow_sub_one_eq_mod _ 8, Nat.shiftRight_eq_div_pow, high, low, sum]

/-- Settles O45: each of these accesses replies with its register. -/
theorem idleReadsReturnTheRegisters : Obligations.IdleReadsReturnTheRegisters := by
  intro a r v rest s hb hq hm hh
  simp only [List.mem_cons, List.not_mem_nil, or_false, Prod.mk.injEq] at hm
  have served (hf : HostAct.engineFollows a = false) := step_serve_idle hb hq hh hf
  obtain ⟨rfl, rfl⟩ | ⟨rfl, rfl⟩ | ⟨rfl, rfl⟩ | ⟨rfl, rfl⟩ | ⟨rfl, rfl⟩ | ⟨rfl, rfl⟩ | ⟨rfl, rfl⟩ := hm
  · exact served rfl
  · exact served rfl
  · exact served rfl
  · exact served rfl
  · exact served rfl
  · exact served rfl
  · rw [served rfl, ← swapBytes_eq]; rfl

/-- Settles O46, by the laws of a buffer's read after a write. -/
theorem hostBufferAccesses : Obligations.HostBufferAccesses := by
  intro i b rest s hb hq
  refine ⟨fun hh => ⟨_, step_serve_idle hb hq hh rfl, rfl, Memory.read_write_same _ _ _, fun j hj =>
    Memory.read_write_other _ b hj⟩, fun hh hr => ?_, fun hh hr => ?_⟩
  · have byte : (s.withHost rest).txByte i.val = b := by simp [State.txByte, hr]
    rw [step_serve_idle hb hq hh rfl, State.serve, byte]; rfl
  · have byte : (s.withHost rest).rxByte i.val = b := by simp [State.rxByte, hr]
    rw [step_serve_idle hb hq hh rfl, State.serve, byte]; rfl

/-- Settles O48: a reset is never held. -/
theorem resetInputDropsEverything : Obligations.ResetInputDropsEverything :=
  fun _ _ hh => ⟨_, step_serve hh rfl rfl, rfl⟩

end HostTurn

/-! ## The idle engine, the requests, the fetch and the buffers -/

section Engine

/-- Settles O36. -/
theorem idleEngineWaitsForARequest : Obligations.IdleEngineWaitsForARequest := by
  intro s hp hq hc hh
  rw [step_of_no_host hh, engineStep_idle hp hq hc]

/-- Settles O49: the engine of the reset state has nothing asked of it. -/
theorem resetStateHasTheStatedValues : Obligations.ResetStateHasTheStatedValues :=
  ⟨rfl, rfl, rfl, rfl, rfl, rfl, rfl, rfl, rfl, rfl, rfl, rfl, rfl, rfl, fun _ => rfl, fun _ => rfl, rfl, rfl, rfl, rfl,
    rfl, rfl, idleEngineWaitsForARequest State.reset rfl rfl rfl rfl⟩

/-- Settles O19: each row is the start step of its operation. -/
theorem requestsAreHeldWhileAnOperationRuns : Obligations.RequestsAreHeldWhileAnOperationRuns := by
  intro m c w s hp
  simp only [exec, execReadData, execWriteData, execHreqRun, execHreqOp3, startStep_held _ m c w hp, and_self]

/-- Settles O33. -/
theorem stepRunsTheDecodedInstruction : Obligations.StepRunsTheDecodedInstruction := by
  intro slot bs i s t hh
  rw [step_of_no_host hh]
  exact ⟨fun hf hd => by simp only [engineStep, hf, hd], fun hf => by simp only [engineStep, hf]⟩

/-- Two bytes that hold a value make the word of their numbers. -/
theorem word_of_read {m : Memory} {i : Nat} {h l : Byte} (hh : Memory.read m (2 * i) = some h)
    (hl : Memory.read m (2 * i + 1) = some l) : Memory.word m i = some (be16 h l) := by
  simp only [Memory.word, hh, hl]

/-- Settles O13: the high byte is not touched by the write of the low one. -/
theorem bufferWordsAreBigEndian : Obligations.BufferWordsAreBigEndian := by
  intro m i w h l
  refine ⟨?_, fun hh hl => ⟨be16 h l, word_of_read hh hl, be16_toNat h l⟩⟩
  rw [word_of_read (h := hi8 w) (l := lo8 w) ?_ (Memory.read_write_same _ _ _), be16_hi8_lo8]
  rw [Memory.read_write_other _ _ (by omega), Memory.read_write_same]

end Engine

end Sys2Proof.Machine
end

section
/-! SUPPORT. The proofs of the statements of 20_memory.md: which event a step puts on the bus. -/

namespace Sys2Proof.Machine

/-! ## The transaction of a phase -/

section Transactions

variable {s t : State} {w : World}

/-- Whatever a step in an operation does, the world is the one after its transaction. -/
theorem RunStep.world (h : RunStep s w t) : t.world = w := by cases h <;> rfl

theorem RunStep.trace_write {frame : List Byte} (h : RunStep s (s.afterWrite frame).world t) :
    t.world.trace = s.world.trace ++ [.wrote frame s.nextCount] := by rw [h.world, afterWrite_world_trace]

theorem RunStep.trace_read {n : Nat} (h : RunStep s (s.afterRead n).world t) :
    t.world.trace = s.world.trace ++ [.readBack n (ReadAnswer.count s.nextRead) (ReadAnswer.bytes s.nextRead)] := by
  rw [h.world, afterRead_world_trace]

/-- 10_state.md R34, 41_ready_synchronizer.md R132, R133: a step of a wait is the half of the probe that `POLL` says. -/
theorem trace_of_engineStep_wait (wait : Phase.isWait s.phase = true) (h : engineStep s = .next t) :
    t.world.trace = s.world.trace ++ [s.probeTransaction] := by
  have hp := ne_idle_of_isWait wait
  cases hpoll : s.poll with
  | sel =>
    rw [engineStep_wait_sel wait hpoll] at h
    cases h
    have sent : RunStep s (s.afterWrite statusSelFrame).world (s.sendFrame statusSelFrame State.toRead) :=
      runStep_sendFrame hp _ (by rw [toRead_wait (by exact wait)]; exact .selected wait)
    rw [State.probeTransaction, hpoll]; exact sent.trace_write
  | read =>
    have read : RunStep s (s.afterRead 2).world t := by
      by_cases hr : s.readSucceeds 2 = true
      · obtain ⟨b0, b1, hb⟩ := two_of_readSucceeds hr
        rw [engineStep_wait_read wait hpoll hb] at h
        cases h
        exact runStep_resolveWait wait _
      · rw [engineStep_wait_error wait hpoll (fun e => hr (readSucceeds_iff.mpr e)), fail_running _ (by exact hp)] at h
        cases h
        exact .busError
    rw [State.probeTransaction, hpoll]; exact read.trace_read

/-- 30_encoding.md R98: the formula on the latched byte is the module byte of the module it is the value of. -/
theorem latchedModuleByte_eq {m : ModuleId} (hm : ModuleId.ofByte s.rModule = some m) :
    s.latchedModuleByte = moduleByte m := by
  rw [State.latchedModuleByte, ModuleId.ofByte_eq_some.mp hm]; rfl

/-- 42_command_encoder.md R142: both length modes announce the low byte of the word count. -/
@[simp] theorem lo8_writeLenField (mode : WriteLenMode) (wc : Half) : lo8 (writeLenField mode wc) = lo8 wc := by
  cases mode
  · exact lo8_be16 _ _
  · rfl

/-- 10_state.md R33: a step in an operation puts the transaction of its phase on the trace, and nothing else. -/
theorem trace_of_engineStep_running (hp : s.phase ≠ .idle) (h : engineStep s = .next t) :
    ∃ e, s.transaction = some e ∧ t.world.trace = s.world.trace ++ [e] := by
  have frame (own : s.phase ∈ [Phase.rdLen, .rdSel, .wrData, .wrLen]) {own' : List Phase} (ho : s.phase ∈ own')
      {f : List Byte} (e : engineStep s = .next (s.sendFrame f (State.advanceFrom own'))) :
      t.world.trace = s.world.trace ++ [.wrote f s.nextCount] := by
    rw [e] at h; cases h
    exact (runStep_frame own ho f).trace_write
  have command (own : s.phase ∈ [Phase.rdCmd, .wrCmd]) {m : ModuleId} (hm : ModuleId.ofByte s.rModule = some m)
      {k : Byte} (e : engineStep s = .next (s.sendCommand m k)) :
      t.world.trace = s.world.trace ++ [.wrote [0x00#8, 0x04#8, s.latchedModuleByte, k] s.nextCount] := by
    rw [e] at h; cases h
    rw [latchedModuleByte_eq hm]; exact (runStep_command own m k).trace_write
  cases hph : s.phase with simp only [State.transaction, hph, Option.some.injEq, exists_eq_left']
  | idle => exact absurd hph hp
  | rdWaitA | rdWaitB | wrWaitA | wrWaitB => exact trace_of_engineStep_wait (by rw [hph]; rfl) h
  | rdLen => exact frame (by simp [hph]) (by simp [hph]) (engineStep_rdLen hph)
  | rdSel => exact frame (by simp [hph]) (by simp [hph]) (engineStep_rdSel hph)
  | wrLen =>
    rw [← lo8_writeLenField s.build.writeLenMode]
    exact frame (by simp [hph]) (by simp [hph]) (engineStep_wrLen hph)
  | wrData =>
    exact frame (by simp [hph]) (by simp [hph]) (engineStep_wrData hph (fits_of_engineStep (.inr hph) h))
  | rdCmd =>
    obtain ⟨m, hm⟩ := module_of_engineStep (by simp [hph]) h
    exact command (by simp [hph]) hm (engineStep_rdCmd hph hm)
  | wrCmd =>
    obtain ⟨m, hm⟩ := module_of_engineStep (by simp [hph]) h
    exact command (by simp [hph]) hm (engineStep_wrCmd hph hm)
  | rdData => exact (runStep_data hph (fits_of_engineStep (.inl hph) h) h).trace_read

/-- Settles O38. The invariant makes a step answer (O55); here the answer is given, and the rest needs no invariant. -/
theorem eachStepIsTheTransactionOfItsPhase : Obligations.EachStepIsTheTransactionOfItsPhase :=
  fun _ _ _ hp h => trace_of_engineStep_running hp h

end Transactions

/-! ## The address map -/

section AddressMap

variable {s t : State}

/-- 20_memory.md R61, 30_encoding.md R102: the events of the map: a frame the engine may send, or a read of a
whole number of words that fits the buffers. -/
def BusEvent.OnMap : BusEvent → Prop
  | .wrote f _ => legalFrame f = true
  | .readBack n _ _ => n % 2 = 0 ∧ n ≤ 1024

theorem legalFrame_length (hi lo : Byte) : legalFrame [0x00#8, 0x06#8, hi, lo] = true := rfl

theorem legalFrame_command (m : ModuleId) (k : Byte) : legalFrame [0x00#8, 0x04#8, moduleByte m, k] = true := by
  cases m <;> rfl

/-- 30_encoding.md R94: an empty payload makes the select frame, one of a single word a frame of four bytes. -/
theorem legalFrame_payload {p : List Byte} (even : p.length % 2 = 0) (fits : p.length ≤ 1024) :
    legalFrame ([0x00#8, 0x08#8] ++ p) = true := by
  match p with
  | [] => rfl
  | [_] => simp at even
  | [_, _] => simp [legalFrame]
  | _ :: _ :: _ :: _ => simpa [legalFrame] using ⟨even, fits⟩

theorem onMap_probeTransaction (s : State) : s.probeTransaction.OnMap := by
  rw [State.probeTransaction]
  cases s.poll with
  | sel => exact rfl
  | read => exact ⟨rfl, by decide⟩

/-- The latches of a running operation keep its transaction on the map. -/
theorem State.Inv.onMap_transaction {e : BusEvent} (hi : s.Inv) (he : s.transaction = some e) : e.OnMap := by
  have fits (hp : s.phase ≠ .idle) : byteLen s.rWc ≤ 1024 := Nat.mul_le_mul_left 2 (hi.countFits hp)
  have command (hp : s.phase ≠ .idle) (k : Byte) : legalFrame [0x00#8, 0x04#8, s.latchedModuleByte, k] = true := by
    obtain ⟨m, hm⟩ := Option.ne_none_iff_exists'.mp (hi.moduleLegal hp)
    rw [latchedModuleByte_eq hm]; exact legalFrame_command m k
  cases hph : s.phase with (rw [State.transaction, hph] at he; cases he)
  | rdWaitA | rdWaitB | wrWaitA | wrWaitB => exact onMap_probeTransaction s
  | rdLen | wrLen => exact legalFrame_length _ _
  | rdSel => exact rfl
  | rdCmd | wrCmd => exact command (by simp [hph]) _
  | rdData => exact ⟨even_byteLen _, fits (by simp [hph])⟩
  | wrData =>
    exact legalFrame_payload (by rw [txRun_length]; exact even_byteLen _)
      (by rw [txRun_length]; exact fits (by simp [hph]))

/-- 44_engine_operations.md R160: the start step issues no bus transaction. -/
theorem startStep_world (op : BitVec 2) (m c : Byte) (wc : Half) : (s.startStep op m c wc).world = s.world := by
  by_cases hp : s.phase = .idle
  · obtain ⟨k, -, -, e⟩ | ⟨-, -, -, e⟩ := startStep_cases op m c wc hp <;> rw [e] <;> rfl
  · rw [startStep_held op m c wc hp]

/-- While no operation runs and no primitive is called on its own, the engine leaves the bus alone. -/
theorem trace_of_engineStep_idle (hp : s.phase = .idle) (hc : s.world.call = none) (h : engineStep s = .next t) :
    t.world.trace = s.world.trace := by
  cases hq : s.hreq with
  | none => rw [engineStep_idle hp hq hc] at h; cases h; rfl
  | some q =>
    rw [engineStep_request hp hq] at h
    cases h
    split_ifs
    · rfl
    · rw [startStep_world]

/-- A step of the engine leaves the trace, or adds one event of the map. -/
theorem State.Inv.trace_of_engineStep (hi : s.Inv) (hc : s.world.call = none) (h : Machine.engineStep s = .next t) :
    t.world.trace = s.world.trace ∨ ∃ e, t.world.trace = s.world.trace ++ [e] ∧ e.OnMap := by
  by_cases hp : s.phase = .idle
  · exact .inl (trace_of_engineStep_idle hp hc h)
  · obtain ⟨e, he, ht⟩ := trace_of_engineStep_running hp h
    exact .inr ⟨e, ht, hi.onMap_transaction he⟩

/-- No access of the host, and no reset, is a bus transaction. -/
@[simp] theorem serve_world_trace (a : HostAct) : (s.serve a).world.trace = s.world.trace := by cases a <;> rfl

@[simp] theorem serve_world_call (a : HostAct) : (s.serve a).world.call = s.world.call := by cases a <;> rfl

/-- A step of the block leaves the trace, or adds one event of the map, whatever the host does in it. -/
theorem State.Inv.trace_of_step (hi : s.Inv) (hc : s.world.call = none) (h : step s = .next t) :
    t.world.trace = s.world.trace ∨ ∃ e, t.world.trace = s.world.trace ++ [e] ∧ e.OnMap := by
  obtain e | ⟨a, -, rest, -, ⟨-, e⟩ | ⟨-, e⟩⟩ := step_cases s <;> rw [e] at h
  · exact hi.trace_of_engineStep hc h
  · have served : State.Inv ((s.withHost rest).serve a) :=
      .serve (s := s.withHost rest) (hi.withWorld fun _ h => h) a
    simpa using served.trace_of_engineStep (by simpa using hc) h
  · cases h; exact .inl (by simp)

/-- Settles O39: the event a step adds is a write or a read of the map. -/
theorem onlyMappedFramesReachTheBus : Obligations.OnlyMappedFramesReachTheBus := by
  intro s t hi hc h
  obtain same | ⟨f | n, added, onMap⟩ := hi.trace_of_step hc h
  · exact .inl same
  · exact .inr (.inl ⟨f, _, added, onMap⟩)
  · exact .inr (.inr ⟨n, _, _, added, onMap⟩)

end AddressMap

end Sys2Proof.Machine
end

section
/-! SUPPORT. The proofs of the statements of 30_encoding.md: the decoder inverts the encoder and the encoder the decoder, and
what two rows with the same bytes have in common. -/

namespace Sys2Proof.Machine

/-! ## What the readers accept

One equivalence for each reader of the decoder: the bytes it accepts are those of its format, and it reads the rest of
the frame. The two round trips are its two directions. -/

section Readers

variable {a : Byte} {bs p : List Byte} {i : Instr} {mode : WriteLenMode}

theorem decodeAddressed_eq_ok {k : List Byte → Decoded} :
    decodeAddressed a bs k = .ok i ↔ ∃ rest, bs = 0x00#8 :: a :: rest ∧ k rest = .ok i := by
  constructor
  · intro h
    unfold decodeAddressed at h
    split at h
    next r b rest =>
      split_ifs at h with hr hb
      exact ⟨rest, by rw [not_not.mp hr, not_not.mp hb], h⟩
    next => cases h
  · rintro ⟨rest, rfl, h⟩
    rw [decodeAddressed, if_neg (not_not.mpr rfl), if_neg (not_not.mpr rfl), h]

theorem decodeNothing_eq_ok {j : Instr} : decodeNothing j bs = .ok i ↔ bs = [] ∧ j = i := by
  cases bs <;> simp [decodeNothing]

theorem decodeTwo_eq_ok {k : Byte → Byte → Decoded} :
    decodeTwo k bs = .ok i ↔ ∃ x y, bs = [x, y] ∧ k x y = .ok i := by
  constructor
  · intro h
    unfold decodeTwo at h
    split at h
    next x y => exact ⟨x, y, rfl, h⟩
    next => cases h
  · rintro ⟨x, y, rfl, h⟩
    exact h

theorem decodePayload_eq_ok {k : List Byte → Instr} :
    decodePayload k p = .ok i ↔ payloadOk p = true ∧ k p = i := by
  by_cases hp : payloadOk p = true <;> simp [decodePayload, hp]

/-- 40_status_probe.md R121: a `PROBE` is read with or without the device's answer. -/
theorem eq_probe_of_decodeProbe (h : decodeProbe bs = .ok i) : i = .probe := by
  unfold decodeProbe at h
  split at h <;> cases h <;> rfl

/-- 30_encoding.md R92: a length frame is read by its length field. -/
theorem decodeLength_eq_ok {k : Byte → Byte → Decoded} :
    decodeAddressed Config.regDataLength bs (decodeTwo k) = .ok i ↔
      ∃ len, bs = lengthFrame len ∧ k (hi8 len) (lo8 len) = .ok i := by
  rw [decodeAddressed_eq_ok]
  constructor
  · rintro ⟨rest, rfl, h⟩
    obtain ⟨x, y, rfl, h⟩ := decodeTwo_eq_ok.mp h
    exact ⟨be16 x y, by rw [lengthFrame, hi8_be16, lo8_be16], by rwa [hi8_be16, lo8_be16]⟩
  · rintro ⟨len, rfl, h⟩
    exact ⟨_, rfl, h⟩

/-- 30_encoding.md R105: the write form accepts the length fields its mode admits. -/
theorem decodeWriteLen_eq_ok {k : Half → Instr} {len : Half} :
    decodeWriteLen mode k (hi8 len) (lo8 len) = .ok i ↔ Instr.wellFormed mode (.lenWr len) = true ∧ k len = i := by
  have high : hi8 len = 0x00#8 ↔ len.toNat < 256 := by
    rw [← BitVec.toNat_inj, hi8_toNat, BitVec.toNat_ofNat]; omega
  rw [decodeWriteLen, be16_hi8_lo8]
  cases mode with
  | full16 => simp [Instr.wellFormed]
  | lowByte => by_cases hz : hi8 len = 0x00#8 <;> simp [Instr.wellFormed, ← high, hz]

/-- 30_encoding.md R93: a command frame is read by its module byte and its opcode byte. -/
theorem decodeCommand_eq_ok {k : Byte → Byte → Decoded} :
    decodeAddressed Config.regCommand bs (decodeTwo k) = .ok i ↔
      ∃ mb c, bs = commandFrame mb c ∧ k mb c = .ok i := by
  rw [decodeAddressed_eq_ok]
  constructor
  · rintro ⟨rest, rfl, h⟩
    obtain ⟨mb, c, rfl, h⟩ := decodeTwo_eq_ok.mp h
    exact ⟨mb, c, rfl, h⟩
  · rintro ⟨mb, c, rfl, h⟩
    exact ⟨_, rfl, h⟩

/-- 30_encoding.md R94: a payload frame is read by its payload. -/
theorem decodePayloadFrame_eq_ok {k : List Byte → Instr} :
    decodeAddressed Config.regData0 bs (decodePayload k) = .ok i ↔
      ∃ p, bs = payloadFrame p ∧ payloadOk p = true ∧ k p = i := by
  simp only [decodeAddressed_eq_ok, decodePayload_eq_ok]
  rfl

/-- 30_encoding.md R97: bytes read as a request are those of the word of its fields. -/
theorem exists_requestWord_of_decodeRequest (h : decodeRequest bs = .ok i) :
    ∃ op m c w, bs = requestBytes (requestWord op m c w) := by
  unfold decodeRequest at h
  split at h
  next b4 b3 b2 b1 b0 =>
    have reserved : b4.toNat / 4 = 0 := by
      by_contra hr
      rw [if_pos hr] at h; cases h
    refine ⟨BitVec.ofNat 2 b4.toNat, b3, b2, be16 b1 b0, ?_⟩
    have op : BitVec.ofNat 8 (BitVec.ofNat 2 b4.toNat).toNat = b4 := by
      apply BitVec.eq_of_toNat_eq
      simp only [BitVec.toNat_ofNat]; omega
    rw [requestBytes_requestWord, op, hi8_be16, lo8_be16]
  next => cases h

/-- 30_encoding.md R98: a module is read from its own module byte. -/
theorem eq_moduleByte_of_moduleOfByte {mb : Byte} {m : ModuleId} (h : moduleOfByte mb = some m) : mb = moduleByte m := by
  unfold moduleOfByte at h
  split_ifs at h <;> cases h <;> assumption

/-- 30_encoding.md R104 b: the frame of `ENC_CMD` is read as its preimage with `GET`. -/
theorem eq_encCmd_of_decodeEncCmd {mb k : Byte} (h : decodeEncCmd mb k = .ok i) :
    ∃ m, mb = moduleByte m ∧ i = .encCmd m k .get := by
  unfold decodeEncCmd at h
  split at h
  next m hm => cases h; exact ⟨m, eq_moduleByte_of_moduleOfByte hm, rfl⟩
  next => cases h

end Readers

/-! ## The rows that share a format -/

section Rows

variable {mode : WriteLenMode} {p : List Byte} {wc : Half}

theorem opcodeByte_get (cid : Byte) : opcodeByte cid .get = cid := BitVec.add_zero cid

theorem wellFormed_commandInstr (mode : WriteLenMode) (m : ModuleId) (k : Byte) :
    Instr.wellFormed mode (commandInstr m k) = true := by cases m <;> rfl

theorem slotOf_commandInstr (mode : WriteLenMode) (m : ModuleId) (k : Byte) :
    slotOf mode (commandInstr m k) = some (.command m) := by cases m <;> rfl

theorem encode_commandInstr (mode : WriteLenMode) (m : ModuleId) (k : Byte) :
    encode mode (commandInstr m k) = commandFrame (moduleByte m) k := by cases m <;> rfl

/-- 42_command_encoder.md R142: a length field the mode admits is sent as it is. -/
theorem writeLenField_eq_of_wellFormed (h : Instr.wellFormed mode (.lenWr wc) = true) : writeLenField mode wc = wc := by
  cases mode with
  | full16 => rfl
  | lowByte =>
    have low : wc.toNat < 256 := by simpa [Instr.wellFormed] using h
    apply BitVec.eq_of_toNat_eq
    rw [writeLenField, be16_toNat, lo8_toNat, BitVec.toNat_ofNat]; omega

/-- A payload that fits the buffers is two bytes for each of the words counted. -/
theorem length_eq_of_payloadOk (h : payloadOk p = true) :
    (wordCount p).toNat ≤ 512 ∧ p.length = 2 * (wordCount p).toNat := by
  obtain ⟨even, fits⟩ := payloadOk_iff.mp h
  have count : (wordCount p).toNat = p.length / 2 := by
    rw [wordCount, BitVec.toNat_ofNat]; omega
  omega

theorem wordCount_of_length (h : p.length = 2 * wc.toNat) : wordCount p = wc := by
  rw [wordCount, h, Nat.mul_div_cancel_left _ Nat.two_pos, BitVec.ofNat_toNat, BitVec.setWidth_eq]

theorem payloadOk_of_length (fits : wc.toNat ≤ 512) (h : p.length = 2 * wc.toNat) : payloadOk p = true :=
  payloadOk_iff.mpr (by omega)

/-- 43_payload_transfer.md R150: data of just the counted words is packed whole. -/
theorem packPayload_of_length (h : p.length = 2 * wc.toNat) : packPayload p wc = payloadFrame p := by
  rw [packPayload, byteLen, ← h, List.take_length]

end Rows

/-! ## The round trips -/

section RoundTrips

/-- Settles O51: each row's frame is accepted by the reader of its slot. -/
theorem decodeOfEncodeIsTheInstruction : Obligations.DecodeOfEncodeIsTheInstruction := by
  intro mode i slot wf hs notCmd whole low
  cases i with (cases hs)
  | readData m c w => exact decode_requestWord 0#2 m c w
  | writeData m c w => exact decode_requestWord 1#2 m c w
  | hreqRun m c w => exact decode_requestWord 2#2 m c w
  | hreqOp3 m c w => exact decode_requestWord 3#2 m c w
  | statusSel => exact decode_statusSelFrame
  | dataSel => exact decode_dataSelFrame
  | lenRd len => exact decode_lenRd len
  | lenWr len => exact decode_lenWr wf
  | cmdAgc k => exact decode_command .agc k
  | cmdSys k => exact decode_command .sys k
  | cmdVid k => exact decode_command .vid k
  | cmdOem k => exact decode_command .oem k
  | cmdRad k => exact decode_command .rad k
  | dataWr p => exact decode_payloadFrame wf
  | statusRsp b0 b1 => exact decode_statusRsp b0 b1
  | dataRsp p => exact decode_dataRsp wf
  | probe => rfl
  | swap16 v =>
    rw [decode]
    exact decodeTwo_eq_ok.mpr ⟨_, _, rfl, by rw [be16_hi8_lo8]⟩
  | decodeStatus b0 b1 => rfl
  | encCmd m cid op => exact absurd rfl (notCmd m cid op)
  | encLenRd wc =>
    rw [decode]
    exact decodeLength_eq_ok.mpr ⟨wc, rfl, by rw [be16_hi8_lo8]⟩
  | encLenWr wc =>
    have admitted : Instr.wellFormed mode (.lenWr wc) = true := by simpa [Instr.wellFormed] using low wc rfl
    rw [encode, encodeLenWr, writeLenField_eq_of_wellFormed admitted]
    exact decodeLength_eq_ok.mpr ⟨wc, rfl, decodeWriteLen_eq_ok.mpr ⟨admitted, rfl⟩⟩
  | packWrite d wc =>
    obtain ⟨fits, -⟩ : wc.toNat ≤ 512 ∧ 2 * wc.toNat ≤ d.length := by simpa [Instr.wellFormed] using wf
    have len : d.length = 2 * wc.toNat := whole d wc rfl
    rw [decode]
    exact decodePayloadFrame_eq_ok.mpr
      ⟨d, packPayload_of_length len, payloadOk_of_length fits len, by rw [wordCount_of_length len]⟩
  | unpackRead r wc =>
    obtain ⟨fits, len⟩ : wc.toNat ≤ 512 ∧ r.length = 2 * wc.toNat := by simpa [Instr.wellFormed] using wf
    rw [decode, encode]
    exact decodePayload_eq_ok.mpr ⟨payloadOk_of_length fits len, by rw [wordCount_of_length len]⟩

/-- A request slot reads a request row from the bytes of its word. -/
theorem encode_of_decodeRequest {mode : WriteLenMode} {bs : List Byte} {i : Instr} (h : decodeRequest bs = .ok i) :
    i.wellFormed mode = true ∧ slotOf mode i = some .request ∧ encode mode i = bs := by
  obtain ⟨op, m, c, w, rfl⟩ := exists_requestWord_of_decodeRequest h
  have ops : ∀ op : BitVec 2, op = 0#2 ∨ op = 1#2 ∨ op = 2#2 ∨ op = 3#2 := by decide
  have row := (decode_requestWord op m c w).symm.trans h
  obtain rfl | rfl | rfl | rfl := ops op <;> cases row <;> exact ⟨rfl, rfl, rfl⟩

/-- Settles O52: the bytes each slot's reader accepts are the frame of the row it reads. -/
theorem encodeOfDecodeIsTheBytes : Obligations.EncodeOfDecodeIsTheBytes := by
  intro mode slot bs i hmode hmode' h
  cases slot with (simp only [decode] at h)
  | request =>
    obtain ⟨wf, hs, he⟩ := encode_of_decodeRequest (mode := mode) h
    exact ⟨wf, hs, fun _ => he⟩
  | statusSel | dataSel =>
    obtain ⟨rest, rfl, hk⟩ := decodeAddressed_eq_ok.mp h
    obtain ⟨rfl, rfl⟩ := decodeNothing_eq_ok.mp hk
    exact ⟨rfl, rfl, fun _ => rfl⟩
  | lenRd | encLenRd =>
    obtain ⟨len, rfl, hk⟩ := decodeLength_eq_ok.mp h
    rw [be16_hi8_lo8] at hk
    cases hk; exact ⟨rfl, rfl, fun _ => rfl⟩
  | lenWr m' =>
    obtain rfl := hmode m' rfl
    obtain ⟨len, rfl, hk⟩ := decodeLength_eq_ok.mp h
    obtain ⟨wf, rfl⟩ := decodeWriteLen_eq_ok.mp hk
    exact ⟨wf, rfl, fun _ => rfl⟩
  | encLenWr m' =>
    obtain rfl := hmode' m' rfl
    obtain ⟨len, rfl, hk⟩ := decodeLength_eq_ok.mp h
    obtain ⟨wf, rfl⟩ := decodeWriteLen_eq_ok.mp hk
    exact ⟨rfl, rfl, fun _ => by rw [encode, encodeLenWr, writeLenField_eq_of_wellFormed wf]⟩
  | command m =>
    obtain ⟨mb, k, rfl, hk⟩ := decodeCommand_eq_ok.mp h
    split_ifs at hk with hm
    cases hk; subst hm
    exact ⟨wellFormed_commandInstr mode m k, slotOf_commandInstr mode m k, fun _ => encode_commandInstr mode m k⟩
  | encCmd =>
    obtain ⟨mb, k, rfl, hk⟩ := decodeCommand_eq_ok.mp h
    obtain ⟨m, rfl, rfl⟩ := eq_encCmd_of_decodeEncCmd hk
    exact ⟨rfl, rfl, fun _ => by rw [encode, encodeCommand, opcodeByte_get]⟩
  | dataWr =>
    obtain ⟨p, rfl, ok, rfl⟩ := decodePayloadFrame_eq_ok.mp h
    exact ⟨ok, rfl, fun _ => rfl⟩
  | packWrite =>
    obtain ⟨p, rfl, ok, rfl⟩ := decodePayloadFrame_eq_ok.mp h
    obtain ⟨fits, len⟩ := length_eq_of_payloadOk ok
    exact ⟨by simp [Instr.wellFormed, fits, len.ge], rfl, fun _ => packPayload_of_length len⟩
  | dataRsp =>
    obtain ⟨ok, rfl⟩ := decodePayload_eq_ok.mp h
    exact ⟨ok, rfl, fun _ => rfl⟩
  | unpackRead =>
    obtain ⟨ok, rfl⟩ := decodePayload_eq_ok.mp h
    obtain ⟨fits, len⟩ := length_eq_of_payloadOk ok
    exact ⟨by simpa [Instr.wellFormed, fits] using len, rfl, fun _ => rfl⟩
  | statusRsp | decodeStatus =>
    obtain ⟨x, y, rfl, hk⟩ := decodeTwo_eq_ok.mp h
    cases hk; exact ⟨rfl, rfl, fun _ => rfl⟩
  | swap16 =>
    obtain ⟨x, y, rfl, hk⟩ := decodeTwo_eq_ok.mp h
    cases hk; exact ⟨rfl, rfl, fun _ => by rw [encode, hi8_be16, lo8_be16]⟩
  | probe =>
    obtain ⟨rest, rfl, hk⟩ := decodeAddressed_eq_ok.mp h
    obtain rfl := eq_probe_of_decodeProbe hk
    exact ⟨rfl, rfl, fun hn => absurd rfl hn⟩

/-- Settles O50: each word is evaluated in its slot. -/
theorem specWordsDecode : Obligations.SpecWordsDecode := ⟨rfl, rfl, rfl, rfl, rfl, rfl, rfl⟩

end RoundTrips

/-! ## The frames that CMD.OEM and CMD.RAD share -/

section Aliases

variable {s t : State}

/-- 30_encoding.md R104 b: one opcode more is one command id more. -/
theorem opcodeByte_succ (cid : Byte) :
    opcodeByte cid .set = opcodeByte (cid + 1#8) .get ∧ opcodeByte cid .run = opcodeByte (cid + 1#8) .set := by
  simp [opcodeByte, Opcode.code, BitVec.add_assoc]

/-- Settles O28: OEM and RAD have one module byte, and the opcode byte is a sum. -/
theorem oemRadAndOpcodeSumAlias : Obligations.OemRadAndOpcodeSumAlias := by
  refine ⟨fun _ _ => rfl, fun _ _ => rfl, fun m cid => ?_⟩
  obtain ⟨set, run⟩ := opcodeByte_succ cid
  exact ⟨by rw [encodeCommand, set, encodeCommand], by rw [encodeCommand, run, encodeCommand]⟩

/-- The same state with the module latch at RAD. -/
def State.asRad (s : State) : State := { s with rModule := 0xE0#8 }

/-! No operation of the sequencer reads the module latch. -/

theorem fail_asRad (e : OpError) (s : State) : State.fail e s.asRad = (State.fail e s).asRad := by
  rw [State.fail, State.fail, apply_ite State.asRad]; rfl

theorem sendFrame_asRad (frame : List Byte) {k : State → State} (hk : ∀ u : State, k u.asRad = (k u).asRad) (s : State) :
    s.asRad.sendFrame frame k = (s.sendFrame frame k).asRad := by
  rw [State.sendFrame, State.sendFrame, apply_ite State.asRad, ← hk, ← fail_asRad]; rfl

theorem toRead_asRad (s : State) : s.asRad.toRead = s.toRead.asRad := by
  rw [State.toRead, State.toRead, apply_ite State.asRad]; rfl

theorem enterPhase_asRad (p : Phase) (s : State) : s.asRad.enterPhase p = (s.enterPhase p).asRad := by
  rw [State.enterPhase, State.enterPhase, apply_ite State.asRad]; rfl

theorem advanceFrom_asRad (own : List Phase) (s : State) :
    State.advanceFrom own s.asRad = (State.advanceFrom own s).asRad := by
  rw [State.advanceFrom, State.advanceFrom, apply_ite State.asRad, ← enterPhase_asRad]; rfl

theorem leaveWait_asRad (st : DeviceStatus) (s : State) : State.leaveWait st s.asRad = (State.leaveWait st s).asRad := by
  rw [State.leaveWait, State.leaveWait, apply_ite State.asRad]; rfl

theorem resolveWait_asRad (st : DeviceStatus) (s : State) :
    State.resolveWait st s.asRad = (State.resolveWait st s).asRad := by
  simp only [State.resolveWait, apply_ite State.asRad, ← leaveWait_asRad, ← fail_asRad]; rfl

theorem storeResponse_asRad (raw : List Byte) (s : State) :
    s.asRad.storeResponse raw = (s.storeResponse raw).asRad := by
  rw [State.storeResponse, State.storeResponse, apply_ite State.asRad]; rfl

/-- 30_encoding.md R104 a: `CMD.RAD` does what `CMD.OEM` does. -/
theorem sendCommand_asRad (k : Byte) (s : State) : s.asRad.sendCommand .rad k = (s.sendCommand .oem k).asRad :=
  sendFrame_asRad _ (advanceFrom_asRad _) s

/-- The two steps of a probe. -/
theorem engineStep_asRad_of_wait (wait : Phase.isWait s.phase = true) (h : engineStep s = .next t) :
    engineStep s.asRad = .next t.asRad := by
  have wait' : Phase.isWait s.asRad.phase = true := wait
  cases hpoll : s.poll with
  | sel =>
    rw [engineStep_wait_sel wait hpoll] at h; cases h
    rw [engineStep_wait_sel wait' hpoll, sendFrame_asRad _ toRead_asRad]
  | read =>
    by_cases hr : s.readSucceeds 2 = true
    · obtain ⟨b0, b1, hb⟩ := two_of_readSucceeds hr
      rw [engineStep_wait_read wait hpoll hb] at h; cases h
      rw [engineStep_wait_read wait' hpoll hb, ← resolveWait_asRad]; rfl
    · have failed : ReadAnswer.count s.nextRead ≠ 2 := fun e => hr (readSucceeds_iff.mpr e)
      rw [engineStep_wait_error wait hpoll failed] at h; cases h
      rw [engineStep_wait_error wait' hpoll failed, ← fail_asRad]; rfl

/-- 44_engine_operations.md R168: the data read, taken or failed. -/
theorem engineStep_asRad_of_data (last : s.phase = .rdData) (h : engineStep s = .next t) :
    engineStep s.asRad = .next t.asRad := by
  have fits := fits_of_engineStep (.inl last) h
  have last' : s.asRad.phase = .rdData := last
  by_cases hr : s.readSucceeds (byteLen s.rWc) = true
  · obtain ⟨hb, len⟩ := bytes_of_readSucceeds hr
    rw [engineStep_rdData last fits hb len] at h; cases h
    rw [engineStep_rdData last' fits hb len, ← storeResponse_asRad]; rfl
  · have failed : ReadAnswer.count s.nextRead ≠ (byteLen s.rWc : Int) := fun e => hr (readSucceeds_iff.mpr e)
    rw [engineStep_rdData_error last fits failed] at h; cases h
    rw [engineStep_rdData_error last' fits failed, ← fail_asRad]; rfl

/-- 70_reset_and_hazards.md R233: in every phase the engine does for RAD what it does for OEM. -/
theorem engineStep_asRad (hp : s.phase ≠ .idle) (oem : s.rModule = 0x80#8) (h : engineStep s = .next t) :
    engineStep s.asRad = .next t.asRad := by
  have moves {f g : State → State} (e : engineStep s = .next (f s)) (e' : engineStep s.asRad = .next (g s.asRad))
      (same : g s.asRad = (f s).asRad) : engineStep s.asRad = .next t.asRad := by
    rw [e] at h; cases h; rw [e', same]
  have ofOem : ModuleId.ofByte s.rModule = some .oem := by rw [oem]; rfl
  have ofRad : ModuleId.ofByte s.asRad.rModule = some .rad := rfl
  cases hph : s.phase with
  | idle => exact absurd hph hp
  | rdWaitA | rdWaitB | wrWaitA | wrWaitB => exact engineStep_asRad_of_wait (by rw [hph]; rfl) h
  | rdData => exact engineStep_asRad_of_data hph h
  | rdLen => exact moves (engineStep_rdLen hph) (engineStep_rdLen hph) (sendFrame_asRad _ (advanceFrom_asRad _) s)
  | rdSel => exact moves (engineStep_rdSel hph) (engineStep_rdSel hph) (sendFrame_asRad _ (advanceFrom_asRad _) s)
  | wrLen => exact moves (engineStep_wrLen hph) (engineStep_wrLen hph) (sendFrame_asRad _ (advanceFrom_asRad _) s)
  | wrData =>
    have fits := fits_of_engineStep (.inr hph) h
    exact moves (engineStep_wrData hph fits) (engineStep_wrData hph fits) (sendFrame_asRad _ (advanceFrom_asRad _) s)
  | rdCmd => exact moves (engineStep_rdCmd hph ofOem) (engineStep_rdCmd (s := s.asRad) hph ofRad) (sendCommand_asRad _ s)
  | wrCmd => exact moves (engineStep_wrCmd hph ofOem) (engineStep_wrCmd (s := s.asRad) hph ofRad) (sendCommand_asRad _ s)

/-- Settles O42: with no host access to come, the step is the engine's. -/
theorem radOperationRunsAsOem : Obligations.RadOperationRunsAsOem := by
  intro s t hp hh oem h
  rw [step_of_no_host hh] at h
  rw [step_of_no_host (by exact hh)]
  exact engineStep_asRad hp oem h

end Aliases

end Sys2Proof.Machine
end

section
/-! SUPPORT. The proofs of the statements of 40_status_probe.md: the status decoder, and what a `PROBE` called on its own
leaves. -/

namespace Sys2Proof.Machine

/-! ## The status decoder -/

section StatusDecoder

/-- 40_status_probe.md R120: a bit of a byte, read as a bit and as a mask. -/
theorem getLsbD_iff_and_twoPow {b : Byte} {i : Nat} (hi : i < 8) :
    b.getLsbD i = true ↔ b &&& BitVec.twoPow 8 i ≠ 0#8 := by
  have nonzero : BitVec.twoPow 8 i ≠ 0#8 := fun e => by
    have bit := congrArg (BitVec.getLsbD · i) e
    simp [hi] at bit
  rw [BitVec.and_twoPow]
  cases b.getLsbD i with
  | false => simp
  | true => simpa using nonzero

/-- 40_status_probe.md R120, decision D3: bits 7:3 of the second byte do not affect the result. -/
theorem decodeStatusBytes_low_bits (b0 b1 : Byte) : decodeStatusBytes b0 (b1 &&& 0x07#8) = decodeStatusBytes b0 b1 := by
  simp [decodeStatusBytes]

/-- Settles O1: the three flags are the bits of their masks, and the decoder reads no other bit. -/
theorem decodeStatusGivesCodeAndFlags : Obligations.DecodeStatusGivesCodeAndFlags := by
  intro b0 b1 s
  refine ⟨decodeStatusBytes b0 b1, rfl, rfl, getLsbD_iff_and_twoPow (i := 2) (by decide),
    getLsbD_iff_and_twoPow (i := 1) (by decide), getLsbD_iff_and_twoPow (i := 0) (by decide), ?_⟩
  change execDecodeStatus b0 (b1 &&& 0x07#8) s = execDecodeStatus b0 b1 s
  rw [execDecodeStatus, decodeStatusBytes_low_bits, execDecodeStatus]

end StatusDecoder

/-! ## The probe called on its own

The three outcomes of `probe_cases`, each under the answers that give it. -/

section Probe

variable {s u : State} {b0 b1 : Byte} {st : DeviceStatus}

theorem probe_of_write_failed (failed : s.nextCount ≠ 2) : s.probe = (none, s.afterWrite statusSelFrame) := by
  obtain ⟨-, e⟩ | ⟨taken, -⟩ | ⟨_, _, taken, -⟩ := probe_cases s
  · exact e
  · exact absurd taken failed
  · exact absurd taken failed

theorem probe_of_read_failed (taken : s.nextCount = 2)
    (failed : ReadAnswer.count (s.afterWrite statusSelFrame).nextRead ≠ 2) :
    s.probe = (none, (s.afterWrite statusSelFrame).afterRead 2) := by
  obtain ⟨lost, -⟩ | ⟨-, -, e⟩ | ⟨_, _, -, answer, -⟩ := probe_cases s
  · exact absurd taken lost
  · exact e
  · exact absurd (by rw [answer]; rfl) failed

theorem probe_of_delivered (taken : s.nextCount = 2)
    (answer : (s.afterWrite statusSelFrame).nextRead = .delivered [b0, b1]) :
    s.probe = (some (decodeStatusBytes b0 b1),
      ((s.afterWrite statusSelFrame).afterRead 2).latchStat (decodeStatusBytes b0 b1)) := by
  obtain ⟨lost, -⟩ | ⟨-, failed, -⟩ | ⟨_, _, -, answer', e⟩ := probe_cases s
  · exact absurd taken lost
  · exact absurd (by rw [answer]; rfl) failed
  · cases answer.symm.trans answer'
    exact e

theorem exec_probe_of_ok (h : s.probe = (some st, u)) : exec .probe s = .next (u.giveResult (.probed (some st))) := by
  change execProbe s = _
  rw [execProbe, State.probeOrFail, h]

theorem probeOrFail_of_error (h : s.probe = (none, u)) : s.probeOrFail = State.fail .busError u := by
  simp only [State.probeOrFail, h]

/-- 60_exceptions.md R198: with no operation to end, the error entry leaves what the failed probe left. -/
theorem exec_probe_of_error (h : s.probe = (none, u)) (hp : u.phase = .idle) :
    exec .probe s = .next (u.giveResult (.probed none)) := by
  change execProbe s = _
  rw [execProbe, probeOrFail_of_error h, fail_idle _ hp, h]

theorem giveResult_world (r : UnitOut) : (s.giveResult r).world = { s.world with unitOut := r } := rfl

/-- 00_scope.md R16, 40_status_probe.md R121: the two events of a probe whose select write was taken whole, and the two
answers they use. -/
theorem world_of_both_transactions (taken : s.nextCount = 2) :
    ((s.afterWrite statusSelFrame).afterRead 2).world = { s.world with
      writeAnswers := s.world.writeAnswers.tail
      readAnswers := s.world.readAnswers.tail
      trace := s.world.trace ++ [.wrote statusSelFrame 2, .readBack 2
        (ReadAnswer.count (s.afterWrite statusSelFrame).nextRead)
        (ReadAnswer.bytes (s.afterWrite statusSelFrame).nextRead)]
      tick := s.world.tick + 2 } := by
  simp [State.afterRead, State.afterWrite, taken]

/-- Settles O9: the probe latches the status, and its world is the one after both transactions. -/
theorem probeLatchesTheWholeStatus : Obligations.ProbeLatchesTheWholeStatus := by
  intro b0 b1 s taken (answer : (s.afterWrite statusSelFrame).nextRead = _)
  refine ⟨_, exec_probe_of_ok (probe_of_delivered taken answer), rfl, ?_⟩
  rw [giveResult_world, latchStat_world, world_of_both_transactions taken, answer]; rfl

/-- Settles O10: the probe ends after the transaction that failed, and there is no operation to end with it. -/
theorem failedProbeKeepsTheStatus : Obligations.FailedProbeKeepsTheStatus := by
  intro s hp
  constructor
  · intro failed
    exact ⟨_, exec_probe_of_error (probe_of_write_failed failed) hp, rfl, rfl, rfl⟩
  · rintro taken _ rfl failed
    exact ⟨_, exec_probe_of_error (probe_of_read_failed taken failed) hp, rfl, rfl,
      congrArg World.trace (world_of_both_transactions taken)⟩

end Probe

end Sys2Proof.Machine
end

section
/-! SUPPORT. The proofs of the statements of 41_ready_synchronizer.md: the two steps of a probe in a wait, the loop of
`WAIT_READY`, and the sequencer's wait as that loop. -/

namespace Sys2Proof.Machine

/-! ## A probe in a wait

The select frame, the status response, and the read that brings it, each under the condition that decides its outcome. -/

section ProbeInWait

variable {s : State} {st : DeviceStatus} {b0 b1 : Byte}

theorem isWait_of_mem (h : s.phase ∈ [Phase.rdWaitA, .rdWaitB, .wrWaitA, .wrWaitB]) : Phase.isWait s.phase = true :=
  isWait_iff.mpr (by simpa using h)

theorem sendFrame_statusSel_taken (wait : Phase.isWait s.phase = true) (taken : s.nextCount = 2) :
    s.sendFrame statusSelFrame State.toRead = { s.afterWrite statusSelFrame with poll := .read } :=
  (sendFrame_ok _ taken).trans (toRead_wait wait)

theorem sendFrame_statusSel_failed (failed : s.nextCount ≠ 2) :
    s.sendFrame statusSelFrame State.toRead = State.fail .busError (s.afterWrite statusSelFrame) :=
  sendFrame_error _ failed

theorem resolveWait_ready (ready : DeviceStatus.isReady st = true) :
    State.resolveWait st s = State.leaveWait st { s with sync := .ready } := by
  rw [State.resolveWait, if_pos ready]

theorem resolveWait_timedOut (busy : DeviceStatus.isReady st = false) (out : s.tries = 0#8) :
    State.resolveWait st s = State.fail (.notReady st.booted st.busy) { s with sync := .timedOut } := by
  rw [State.resolveWait, if_neg (by simp [busy]), if_pos out]

theorem resolveWait_retry (busy : DeviceStatus.isReady st = false) (left : s.tries ≠ 0#8) :
    State.resolveWait st s = { s with tries := s.tries - 1#8, poll := .sel } := by
  rw [State.resolveWait, if_neg (by simp [busy]), if_neg left]

theorem exec_statusRsp_wait (wait : Phase.isWait s.phase = true) :
    exec (.statusRsp b0 b1) s =
      .next (State.resolveWait (decodeStatusBytes b0 b1) (s.latchStat (decodeStatusBytes b0 b1))) := by
  rw [← receiveStatus_wait _ wait]; rfl

/-- A status that is ready, in a wait that is not the last of a `WRITE_DATA`. -/
theorem exec_statusRsp_ready (wait : Phase.isWait s.phase = true) (more : s.phase ≠ .wrWaitB)
    (ready : DeviceStatus.isReady (decodeStatusBytes b0 b1) = true) :
    exec (.statusRsp b0 b1) s = .next { s with
      stat := decodeStatusBytes b0 b1, sv := true, sync := .ready, phase := Phase.next s.phase } := by
  rw [exec_statusRsp_wait wait, resolveWait_ready ready, leaveWait_next _ (by exact more)]; rfl

/-- Settles O20: the step is the select frame, and its count decides. -/
theorem statusSelMovesTheProbeToItsRead : Obligations.StatusSelMovesTheProbeToItsRead := by
  intro s hp sel
  have wait := isWait_of_mem hp
  refine ⟨engineStep_wait_sel wait sel, congrArg Host.Outcome.next ?_⟩
  by_cases taken : s.nextCount = 2
  · rw [if_pos taken]; exact sendFrame_statusSel_taken wait taken
  · rw [if_neg taken]
    exact (sendFrame_statusSel_failed taken).trans (fail_running _ (ne_idle_of_isWait wait))

/-- Settles O29: each of the three waits is left for its own next phase. -/
theorem readyStatusLeavesTheWait : Obligations.ReadyStatusLeavesTheWait := by
  intro b0 b1 s booted free
  have ready : DeviceStatus.isReady (decodeStatusBytes b0 b1) = true := by
    simp only [DeviceStatus.isReady, decodeStatusBytes, booted, free]; rfl
  have leaves (wait : Phase.isWait s.phase = true) (more : s.phase ≠ .wrWaitB) := exec_statusRsp_ready wait more ready
  simp only [decodeStatusBytes, booted, free] at leaves
  refine ⟨fun hp => ?_, fun hp => ?_, fun hp => ?_⟩ <;> simpa [hp, Phase.isWait, Phase.next] using leaves

/-- Settles O31: the count of tries decides between one more probe and the error entry. -/
theorem notReadyStatusRetriesOrTimesOut : Obligations.NotReadyStatusRetriesOrTimesOut := by
  intro b0 b1 s notReady hp
  have wait := isWait_of_mem hp
  have busy : DeviceStatus.isReady (decodeStatusBytes b0 b1) = false := by
    simpa [DeviceStatus.isReady, decodeStatusBytes] using notReady
  rw [exec_statusRsp_wait wait]
  refine ⟨fun left => ?_, fun out => ?_⟩
  · rw [resolveWait_retry busy (by exact left)]; rfl
  · rw [resolveWait_timedOut busy (by exact out), fail_running _ (by exact ne_idle_of_isWait wait)]; rfl

/-- Settles O34: the count of the read is looked at before anything is decoded. -/
theorem statusReadChecksTheBusFirst : Obligations.StatusReadChecksTheBusFirst := by
  intro s hp read hh
  have wait := isWait_of_mem hp
  rw [step_of_no_host hh]
  refine ⟨fun b0 b1 answer => ?_, fun failed => ?_⟩
  · rw [engineStep_wait_read wait read answer, exec_statusRsp_wait (by exact wait)]
  · rw [engineStep_wait_error wait read failed, fail_running _ (by exact ne_idle_of_isWait wait)]; rfl

end ProbeInWait

/-! ## The loop of `WAIT_READY`

One equation for each outcome of the loop's probe, then the loop against a device whose answers are listed. -/

section WaitLoop

variable {s u : State} {st : DeviceStatus} {b0 b1 : Byte} {n k : Nat} {ws : List Int} {as : List ReadAnswer}

theorem waitLoop_of_error (h : s.probe = (none, u)) :
    State.waitLoop n s = (.busError, State.fail .busError { u with poll := s.pollAfter }) := by
  rw [State.waitLoop, h]

theorem waitLoop_of_ready (h : s.probe = (some st, u)) (ready : DeviceStatus.isReady st = true) :
    State.waitLoop n s = (.ready, { u with poll := .read, sync := .ready }) := by
  rw [State.waitLoop, h]; exact if_pos ready

theorem waitLoop_zero_of_busy (h : s.probe = (some st, u)) (busy : DeviceStatus.isReady st = false) :
    State.waitLoop 0 s = (.timedOut st.booted st.busy, { u with poll := .read, sync := .timedOut }) := by
  rw [State.waitLoop, h]; exact if_neg (by simp [busy])

theorem waitLoop_succ_of_busy (h : s.probe = (some st, u)) (busy : DeviceStatus.isReady st = false) :
    State.waitLoop (k + 1) s = State.waitLoop k { u with poll := .sel, tries := u.tries - 1#8 } := by
  rw [State.waitLoop, h]; exact if_neg (by simp [busy])

/-- A probe against a device that takes the select write and answers two bytes. -/
theorem probe_of_answers (writes : s.world.writeAnswers = 2 :: ws)
    (reads : s.world.readAnswers = .delivered [b0, b1] :: as) :
    s.probe = (some (decodeStatusBytes b0 b1), { s with
      stat := decodeStatusBytes b0 b1, sv := true
      world := { s.world with
        writeAnswers := ws, readAnswers := as
        trace := s.world.trace ++ probeTrace [(b0, b1)], tick := s.world.tick + 2 } }) := by
  have taken : s.nextCount = 2 := by simp [State.nextCount, writes]
  have answer : (s.afterWrite statusSelFrame).nextRead = .delivered [b0, b1] := by
    simp [State.nextRead, reads]
  have world := world_of_both_transactions taken
  rw [answer, writes, reads] at world
  rw [probe_of_delivered taken answer, State.latchStat, world]; rfl

/-- With `k` tries left, the loop whose probe brings the status `st` ends with the result `r` and leaves `SYNC` at `q`. -/
def WaitEnds (k : Nat) (st : DeviceStatus) (r : WaitResult) (q : Sync) : Prop :=
  ∀ s u : State, s.probe = (some st, u) → State.waitLoop k s = (r, { u with poll := .read, sync := q })

theorem waitEnds_ready (ready : DeviceStatus.isReady st = true) : WaitEnds k st .ready .ready :=
  fun _ _ h => waitLoop_of_ready h ready

theorem waitEnds_timedOut (busy : DeviceStatus.isReady st = false) :
    WaitEnds 0 st (.timedOut st.booted st.busy) .timedOut :=
  fun _ _ h => waitLoop_zero_of_busy h busy

variable {waits : List (Byte × Byte)} {last : Byte × Byte} {r : WaitResult} {q : Sync}

/-- 41_ready_synchronizer.md R130: against a device that takes every select write and is not ready for `waits`, the loop
goes on to the status `last`, and ends there as it does with the tries then left. -/
theorem waitLoop_of_answers (notReady : ∀ x ∈ waits, readyBytes x = false)
    (ends : WaitEnds k (decodeStatusBytes last.1 last.2) r q)
    (writes : s.world.writeAnswers = List.replicate (waits.length + 1) 2 ++ ws)
    (reads : s.world.readAnswers = probeAnswers (waits ++ [last]) ++ as) :
    State.waitLoop (waits.length + k) s = (r, { s with
      stat := decodeStatusBytes last.1 last.2, sv := true, poll := .read, sync := q
      tries := s.tries - BitVec.ofNat 8 waits.length
      world := { s.world with
        writeAnswers := ws, readAnswers := as
        trace := s.world.trace ++ probeTrace (waits ++ [last])
        tick := s.world.tick + 2 * (waits.length + 1) } }) := by
  induction waits generalizing s with
  | nil =>
    rw [List.length_nil, Nat.zero_add, ends _ _ (probe_of_answers writes reads)]
    simp
  | cons x rest ih =>
    obtain ⟨busy, notReady⟩ := List.forall_mem_cons.mp notReady
    rw [List.length_cons, Nat.add_right_comm, waitLoop_succ_of_busy (probe_of_answers writes reads) busy,
      ih notReady rfl rfl]
    simp only [probeTrace, List.cons_append, List.append_assoc, List.nil_append, Prod.mk.injEq, State.mk.injEq,
      World.mk.injEq, true_and]
    exact ⟨by bv_omega, by omega⟩

/-- The same, for the primitive: `TRIES` starts at the operand, of which `k` are left at the last probe. -/
theorem exec_waitReady_of_answers {n : Byte} (tries : waits.length + k = n.toNat)
    (notReady : ∀ x ∈ waits, readyBytes x = false) (ends : WaitEnds k (decodeStatusBytes last.1 last.2) r q)
    (writes : s.world.writeAnswers = List.replicate (waits.length + 1) 2 ++ ws)
    (reads : s.world.readAnswers = probeAnswers (waits ++ [last]) ++ as) :
    exec (.waitReady n) s = .next { s with
      stat := decodeStatusBytes last.1 last.2, sv := true, sync := q, poll := .read, tries := BitVec.ofNat 8 k
      world := { s.world with
        writeAnswers := ws, readAnswers := as, unitOut := .waited r
        trace := s.world.trace ++ probeTrace (waits ++ [last])
        tick := s.world.tick + 2 * (waits.length + 1) } } := by
  have loop := waitLoop_of_answers (s := { s with sync := .polling, tries := n, poll := .sel }) notReady ends writes reads
  have left : n - BitVec.ofNat 8 waits.length = BitVec.ofNat 8 k := by bv_omega
  change execWaitReady n s = _
  rw [execWaitReady, State.waitReady, ← tries, loop, State.giveResult, left]

/-- Settles O11: the loop ends at the ready status with the tries the others left. -/
theorem waitReadyEndsAtTheFirstReadyProbe : Obligations.WaitReadyEndsAtTheFirstReadyProbe := by
  intro n waits last ws as s fits notReady ready writes reads
  exact ⟨_, exec_waitReady_of_answers (Nat.add_sub_of_le fits) notReady (waitEnds_ready ready) writes reads, rfl, rfl⟩

/-- Settles O12: the loop ends at the status that finds no try left. -/
theorem waitReadyTimesOutAfterAllProbes : Obligations.WaitReadyTimesOutAfterAllProbes := by
  intro n waits last ws as s all notReady busy writes reads
  exact ⟨_, exec_waitReady_of_answers (k := 0) all notReady (waitEnds_timedOut busy) writes reads, rfl, rfl⟩

end WaitLoop

/-! ## The sequencer's wait is the loop -/

section Refinement

variable {s t u : State} {st : DeviceStatus} {b : Nat}

/-- 41_ready_synchronizer.md R130, R133: the outcome of the loop with the tries of `s` left, and what follows it. -/
def State.waited (s : State) : State :=
  State.afterWait (State.waitLoop s.tries.toNat s).1 (State.waitLoop s.tries.toNat s).2

theorem waited_of_error (h : s.probe = (none, u)) : s.waited = State.fail .busError { u with poll := s.pollAfter } := by
  rw [State.waited, waitLoop_of_error h, State.afterWait]

theorem waited_of_ready (h : s.probe = (some st, u)) (ready : DeviceStatus.isReady st = true) :
    s.waited = State.leaveWait u.stat { u with poll := .read, sync := .ready } := by
  rw [State.waited, waitLoop_of_ready h ready, State.afterWait]

theorem waited_of_timedOut (h : s.probe = (some st, u)) (busy : DeviceStatus.isReady st = false) (out : s.tries = 0#8) :
    s.waited = State.fail (.notReady st.booted st.busy) { u with poll := .read, sync := .timedOut } := by
  rw [State.waited, out, show (0#8).toNat = 0 from rfl, waitLoop_zero_of_busy h busy, State.afterWait]

theorem waited_of_retry (h : s.probe = (some st, u)) (busy : DeviceStatus.isReady st = false) {v : State}
    (retry : v = { u with poll := .sel, tries := u.tries - 1#8 }) (less : v.tries.toNat + 1 = s.tries.toNat) :
    s.waited = v.waited := by
  rw [State.waited, ← less, waitLoop_succ_of_busy h busy, ← retry, State.waited]

/-- 41_ready_synchronizer.md R132: the select write of a probe was taken whole. -/
def State.selected (s : State) : State := { s.afterWrite statusSelFrame with poll := .read }

theorem engineStep_select_failed (wait : Phase.isWait s.phase = true) (sel : s.poll = .sel) (failed : s.nextCount ≠ 2) :
    engineStep s = .next s.waited := by
  have poll : s.pollAfter = s.poll := by
    rw [sel, State.pollAfter, if_neg fun h => failed (writeSucceeds_iff.mp h)]
  rw [engineStep_wait_sel wait sel, sendFrame_statusSel_failed failed, waited_of_error (probe_of_write_failed failed), poll]
  rfl

theorem engineStep_select_taken (wait : Phase.isWait s.phase = true) (sel : s.poll = .sel) (taken : s.nextCount = 2) :
    engineStep s = .next s.selected := by
  rw [engineStep_wait_sel wait sel, sendFrame_statusSel_taken wait taken]; rfl

theorem engineStep_selected_failed (wait : Phase.isWait s.phase = true) (taken : s.nextCount = 2)
    (failed : ReadAnswer.count (s.afterWrite statusSelFrame).nextRead ≠ 2) :
    engineStep s.selected = .next s.waited := by
  have poll : s.pollAfter = .read := if_pos (writeSucceeds_iff.mpr taken)
  rw [engineStep_wait_error (by exact wait) rfl (by exact failed), waited_of_error (probe_of_read_failed taken failed), poll]
  rfl

/-- 41_ready_synchronizer.md R133: the status read of a wait ends it as the loop does, or starts the next probe with one
try less. -/
theorem engineStep_selected_delivered (wait : Phase.isWait s.phase = true) (taken : s.nextCount = 2)
    (answer : (s.afterWrite statusSelFrame).nextRead = .delivered [b0, b1]) :
    engineStep s.selected = .next s.waited ∨
    ∃ v, engineStep s.selected = .next v ∧ v.waited = s.waited ∧ v.tries.toNat + 1 = s.tries.toNat ∧
      v.phase = s.phase ∧ v.poll = .sel ∧ v.world.host = s.world.host := by
  have probe := probe_of_delivered taken answer
  rw [engineStep_wait_read (by exact wait) rfl (by exact answer)]
  cases ready : DeviceStatus.isReady (decodeStatusBytes b0 b1) with
  | true => left; rw [resolveWait_ready ready, waited_of_ready probe ready]; rfl
  | false =>
    by_cases out : s.tries = 0#8
    · left; rw [resolveWait_timedOut ready (by exact out), waited_of_timedOut probe ready out]; rfl
    · have less : (s.tries - 1#8).toNat + 1 = s.tries.toNat := by bv_omega
      right; rw [resolveWait_retry ready (by exact out)]
      exact ⟨_, rfl, (waited_of_retry probe ready rfl (by exact less)).symm, less, rfl, rfl, rfl⟩

/-- `t` is what the block reaches from `s` in at most `b` steps, each of them one transaction on the trace. -/
def ReachesWithin (b : Nat) (s t : State) : Prop :=
  ∃ k ≤ b, runSteps k s = .next t ∧ t.world.trace.length = s.world.trace.length + k

theorem ReachesWithin.refl (b : Nat) (s : State) : ReachesWithin b s s := ⟨0, b.zero_le, rfl, rfl⟩

theorem ReachesWithin.of_engineStep (running : s.phase ≠ .idle) (hh : s.world.host = []) (h : engineStep s = .next u)
    (rest : ReachesWithin b u t) : ReachesWithin (b + 1) s t := by
  obtain ⟨k, hk, run, count⟩ := rest
  obtain ⟨e, -, trace⟩ := trace_of_engineStep_running running h
  refine ⟨k + 1, Nat.succ_le_succ hk, ?_, ?_⟩
  · rw [runSteps, step_of_no_host hh, h]; exact run
  · rw [count, trace, List.length_append, List.length_singleton]; omega

/-- 41_ready_synchronizer.md R132, R133, R136: a wait ends as the loop does, after at most two transactions for the probe it
starts and for each try left. -/
theorem reachesWithin_waited (wait : Phase.isWait s.phase = true) (sel : s.poll = .sel) (hh : s.world.host = []) :
    ReachesWithin (2 * (s.tries.toNat + 1)) s s.waited := by
  induction n : s.tries.toNat using Nat.strong_induction_on generalizing s with
  | _ n ih =>
    have running := ne_idle_of_isWait wait
    obtain ⟨failed, -⟩ | ⟨taken, failed, -⟩ | ⟨b0, b1, taken, answer, -⟩ := probe_cases s
    · exact .of_engineStep running hh (engineStep_select_failed wait sel failed) (.refl _ _)
    · refine .of_engineStep running hh (engineStep_select_taken wait sel taken) ?_
      exact .of_engineStep running hh (engineStep_selected_failed wait taken failed) (.refl _ _)
    · refine .of_engineStep running hh (engineStep_select_taken wait sel taken) ?_
      obtain last | ⟨v, retry, same, less, phase, sel', host⟩ := engineStep_selected_delivered wait taken answer
      · exact .of_engineStep running hh last (.refl _ _)
      · rw [← n, ← less, ← same]
        exact .of_engineStep running hh retry
          (ih _ (by omega) (by rw [phase]; exact wait) sel' (host.trans hh) rfl)

/-- Settles O57: the state the loop gives is reached, one transaction a step, within the bound. -/
theorem sequencerWaitRefinesWaitReady : Obligations.SequencerWaitRefinesWaitReady := by
  intro s wait sel hh
  obtain ⟨k, hk, run, -⟩ := reachesWithin_waited wait sel hh
  exact ⟨k, hk, run⟩

end Refinement

end Sys2Proof.Machine
end

section
/-! SUPPORT. The proofs of the statements of 42_command_encoder.md: the bytes the three encoders give, and that each gives
its bytes and changes nothing else when called on its own. -/

namespace Sys2Proof.Machine

section CommandEncoder

variable {s : State} {wc : Half}

/-- 30_encoding.md R99, decision D5: the opcode byte as a sum of numbers. -/
theorem opcodeByte_eq_ofNat (cid : Byte) (op : Opcode) :
    opcodeByte cid op = BitVec.ofNat 8 ((cid.toNat + (Opcode.code op).toNat) % 256) := by
  apply BitVec.eq_of_toNat_eq
  rw [opcodeByte, BitVec.toNat_add, BitVec.toNat_ofNat, Nat.mod_mod]

/-- 42_command_encoder.md R140, with the two byte formulas of 30_encoding.md R98, R99 written out. -/
theorem encodeCommand_eq (m : ModuleId) (cid : Byte) (op : Opcode) :
    encodeCommand m cid op = [0x00#8, 0x04#8,
      (ModuleId.code m &&& 0x0F#8) ||| (if ModuleId.code m = 0x80#8 ∨ ModuleId.code m = 0xE0#8 then 0x40#8 else 0x00#8),
      BitVec.ofNat 8 ((cid.toNat + (Opcode.code op).toNat) % 256)] := by
  rw [encodeCommand, opcodeByte_eq_ofNat]; rfl

/-- 42_command_encoder.md R142: under `LOW_BYTE` the high length byte is 0. -/
theorem encodeLenWr_lowByte (wc : Half) : encodeLenWr .lowByte wc = [0x00#8, 0x06#8, 0x00#8, lo8 wc] := by
  rw [encodeLenWr, lengthFrame, lo8_writeLenField, writeLenField, hi8_be16]

/-- 42_command_encoder.md R142: under `FULL16` the write form is the read form. -/
theorem encodeLenWr_full16 (wc : Half) : encodeLenWr .full16 wc = encodeLenRd wc := rfl

theorem exec_encLenWr_of_mode {mode : WriteLenMode} (h : s.build.writeLenMode = mode) :
    exec (.encLenWr wc) s = .next (s.giveResult (.bytes (encodeLenWr mode wc))) := by
  change execEncLenWr wc s = _
  rw [execEncLenWr, h]

/-- Settles O2: the two formulas on the codes of the module and of the opcode, which are the numbers of the statement. -/
theorem encCmdBuildsCommandFrame : Obligations.EncCmdBuildsCommandFrame := by
  intro m cid op s
  change execEncCmd m cid op s = _
  rw [execEncCmd, encodeCommand_eq]
  cases m <;> cases op <;> rfl

/-- Settles O3: the two length bytes are `hi8` and `lo8`, which `be16` joins again. -/
theorem encLenRdSendsBothLengthBytes : Obligations.EncLenRdSendsBothLengthBytes := by
  intro wc s
  exact ⟨rfl, be16_hi8_lo8 wc⟩

/-- Settles O4: the mode of the build selects the form. -/
theorem encLenWrFormByMode : Obligations.EncLenWrFormByMode := by
  intro wc s
  constructor
  · intro low
    rw [exec_encLenWr_of_mode low, encodeLenWr_lowByte]; rfl
  · intro full
    rw [exec_encLenWr_of_mode full, encodeLenWr_full16]; rfl

end CommandEncoder

end Sys2Proof.Machine
end

section
/-! SUPPORT. The proofs of the statements of 43_payload_transfer.md: the two marshaller units and the byte swap called on
their own, the operands the model stops, and the words the payload step sends. -/

namespace Sys2Proof.Machine

/-! ## The byte swap -/

section ByteSwap

/-- 43_payload_transfer.md R154: the low byte becomes the high one. -/
theorem swapBytes_eq_be16 (v : Half) : swapBytes v = be16 (lo8 v) (hi8 v) := by
  rw [swapBytes_eq, be16, lo8_toNat, hi8_toNat]

theorem swapBytes_swapBytes (v : Half) : swapBytes (swapBytes v) = v := by
  rw [swapBytes_eq_be16, swapBytes_eq_be16, lo8_be16, hi8_be16, be16_hi8_lo8]

/-- Settles O8: two swaps put each byte back where it was. -/
theorem swap16ExchangesTheBytes : Obligations.Swap16ExchangesTheBytes := by
  intro v s
  refine ⟨?_, swapBytes_swapBytes v⟩
  rw [← swapBytes_eq]; rfl

end ByteSwap

/-! ## The marshaller and the operands it admits -/

section Marshaller

variable {s : State} {bs p : List Byte} {wc : Half} {mode : WriteLenMode}

theorem wellFormed_packWrite_iff :
    Instr.wellFormed mode (.packWrite bs wc) = true ↔ wc.toNat ≤ 512 ∧ 2 * wc.toNat ≤ bs.length := by
  simp [Instr.wellFormed]

theorem wellFormed_unpackRead_iff :
    Instr.wellFormed mode (.unpackRead bs wc) = true ↔ wc.toNat ≤ 512 ∧ bs.length = 2 * wc.toNat := by
  simp [Instr.wellFormed]

/-- 30_encoding.md R105: under `LOW_BYTE` the length field of the write form is one byte. -/
theorem wellFormed_lenWr_lowByte_iff : Instr.wellFormed .lowByte (.lenWr wc) = true ↔ wc.toNat < 256 := by
  simp [Instr.wellFormed]

theorem exec_packWrite (h : wc.toNat ≤ 512 ∧ 2 * wc.toNat ≤ bs.length) :
    exec (.packWrite bs wc) s = .next (s.giveResult (.bytes (packPayload bs wc))) :=
  if_pos (wellFormed_packWrite_iff.mpr h)

theorem exec_packWrite_refused (h : ¬ (wc.toNat ≤ 512 ∧ 2 * wc.toNat ≤ bs.length)) :
    exec (.packWrite bs wc) s = .refused .illFormedOperand :=
  if_neg (mt wellFormed_packWrite_iff.mp h)

theorem exec_unpackRead (h : wc.toNat ≤ 512 ∧ bs.length = 2 * wc.toNat) :
    exec (.unpackRead bs wc) s = .next (s.giveResult (.bytes (unpackPayload bs wc))) :=
  if_pos (wellFormed_unpackRead_iff.mpr h)

theorem exec_unpackRead_refused (h : ¬ (wc.toNat ≤ 512 ∧ bs.length = 2 * wc.toNat)) :
    exec (.unpackRead bs wc) s = .refused .illFormedOperand :=
  if_neg (mt wellFormed_unpackRead_iff.mp h)

theorem exec_lenWr_refused (low : s.build.writeLenMode = .lowByte) (h : 256 ≤ wc.toNat) :
    exec (.lenWr wc) s = .refused .illFormedOperand :=
  if_neg (by rw [low, wellFormed_lenWr_lowByte_iff]; exact Nat.not_lt.mpr h)

theorem exec_dataWr_refused (h : ¬ (p.length % 2 = 0 ∧ p.length ≤ 1024)) :
    exec (.dataWr p) s = .refused .illFormedOperand :=
  if_neg (mt payloadOk_iff.mp h)

/-- 10_state.md R27: a response past the capacity needs an index that does not exist. -/
theorem exec_dataRsp_fault (h : 1024 < p.length) : exec (.dataRsp p) s = .fault .bufferIndex := if_pos h

theorem exec_dataRsp_refused (fits : p.length ≤ 1024) (odd : p.length % 2 = 1) :
    exec (.dataRsp p) s = .refused .illFormedOperand := by
  have notOk : ¬ payloadOk p = true := by rw [payloadOk_iff]; omega
  exact (if_neg (Nat.not_lt.mpr fits)).trans (if_neg notOk)

/-- 43_payload_transfer.md R151: a run of just the counted words is unpacked whole. -/
theorem unpackPayload_of_length (h : bs.length = 2 * wc.toNat) : unpackPayload bs wc = bs := by
  rw [unpackPayload, byteLen, ← h, List.take_length]

/-- Settles O5: the operands are well formed, and the value is the packed payload. -/
theorem packWritePutsAddressThenPayload : Obligations.PackWritePutsAddressThenPayload :=
  fun _ _ _ fits enough => exec_packWrite ⟨fits, enough⟩

/-- Settles O6: the operands are well formed, and the run is unpacked whole. -/
theorem unpackReadIsTheIdentity : Obligations.UnpackReadIsTheIdentity := by
  intro raw wc s fits len
  rw [exec_unpackRead ⟨fits, len⟩, unpackPayload_of_length len]; rfl

/-- Settles O7, one stop for each row. -/
theorem illFormedOperandsAreRefused : Obligations.IllFormedOperandsAreRefused :=
  fun _ _ _ => ⟨exec_packWrite_refused, exec_unpackRead_refused, exec_lenWr_refused, exec_dataWr_refused,
    exec_dataRsp_fault, exec_dataRsp_refused⟩

end Marshaller

/-! ## The payload step -/

section PayloadStep

variable {s : State} {ws : List Half} {w : Half} {j : Nat}

/-- 10_state.md R28: a word that holds a value is its two bytes, the high byte at the even index. -/
theorem word_eq_some_iff {m : Memory} :
    Memory.word m j = some w ↔ Memory.read m (2 * j) = some (hi8 w) ∧ Memory.read m (2 * j + 1) = some (lo8 w) := by
  constructor
  · intro h
    unfold Memory.word at h
    split at h
    next high low readHigh readLow =>
      cases h
      rw [hi8_be16, lo8_be16]
      exact ⟨readHigh, readLow⟩
    next => cases h
  · rintro ⟨readHigh, readLow⟩
    rw [word_of_read readHigh readLow, be16_hi8_lo8]

theorem txByte_of_read {i : Nat} {b : Byte} (h : Memory.read s.txbuf i = some b) : s.txByte i = b := by
  rw [State.txByte, h, Option.getD_some]

/-- One word more is two bytes more. -/
theorem txRun_word_succ (s : State) (n : Nat) :
    s.txRun (2 * (n + 1)) = s.txRun (2 * n) ++ [s.txByte (2 * n), s.txByte (2 * n + 1)] := by
  rw [State.txRun, State.txRun, Nat.mul_succ, List.range_succ, List.range_succ]
  simp

/-- 43_payload_transfer.md R152: the bytes that leave `TXBUF` are its words, each high byte first. -/
theorem txRun_of_words (h : ∀ j w, ws[j]? = some w → Memory.word s.txbuf j = some w) :
    s.txRun (2 * ws.length) = ws.flatMap fun w => [hi8 w, lo8 w] := by
  induction ws using List.reverseRecOn with
  | nil => rfl
  | append_singleton ws w ih =>
    have before : s.txRun (2 * ws.length) = ws.flatMap fun w => [hi8 w, lo8 w] :=
      ih fun j v hv => h j v (List.getElem?_append_left (List.getElem?_eq_some_iff.mp hv).1 ▸ hv)
    obtain ⟨readHigh, readLow⟩ := word_eq_some_iff.mp (h ws.length w List.getElem?_concat_length)
    rw [List.length_append, List.length_singleton, txRun_word_succ, before, txByte_of_read readHigh,
      txByte_of_read readLow, List.flatMap_append, List.flatMap_singleton]

/-- Settles O14: the step sends the run of `TXBUF` that its word count says, and that run is the words. -/
theorem payloadFrameCarriesTheWordsOfTxbuf : Obligations.PayloadFrameCarriesTheWordsOfTxbuf := by
  intro ws s hp hh fits count words
  have len : byteLen s.rWc = 2 * ws.length := by
    rw [byteLen, count, BitVec.toNat_ofNat]; omega
  have sent := runStep_frame (s := s) (own' := [.wrData]) (by simp [hp]) (by simp [hp])
    (payloadFrame (s.txRun (byteLen s.rWc)))
  refine ⟨_, (step_of_no_host hh).trans (engineStep_wrData hp (by rw [len, capBytes_eq]; omega)), ?_⟩
  rw [sent.trace_write, len, txRun_of_words words]; rfl

end PayloadStep

end Sys2Proof.Machine
end

section
/-! SUPPORT. The proofs of the statements of 44_engine_operations.md: the start step, the steps of the two operations, the
bound on a running operation, and whole operations against a device whose answers are listed. -/

namespace Sys2Proof.Machine

/-! ## The start step -/

section StartStep

variable {s : State} {op : BitVec 2} {m c : Byte} {w : Half} {q : ReqWord}

/-- 44_engine_operations.md R161: the three checks on a request's fields, in their order. -/
theorem startStep_idle (hp : s.phase = .idle) (op : BitVec 2) (m c : Byte) (w : Half) :
    s.startStep op m c w =
      if 2 ≤ op.toNat then s.refuseRequest .illegalRequest
      else if m ∉ [0x01#8, 0x02#8, 0x03#8, 0x80#8, 0xE0#8] then s.refuseRequest .illegalRequest
      else if 1024 < 2 * w.toNat then s.refuseRequest .capacityError
      else s.acceptRequest op m c w := by
  have illegal : ModuleId.ofByte m = none ↔ m ∉ [0x01#8, 0x02#8, 0x03#8, 0x80#8, 0xE0#8] := by
    rw [← ModuleId.ofByte_ne_none, not_not]
  have tooLong : Config.capBytes < byteLen w ↔ 1024 < 2 * w.toNat := Iff.rfl
  simp only [State.startStep, if_pos hp, checkRequest, illegal, tooLong]
  by_cases h1 : 2 ≤ op.toNat
  · simp only [if_pos h1]
  · by_cases h2 : m ∉ [0x01#8, 0x02#8, 0x03#8, 0x80#8, 0xE0#8]
    · simp only [if_neg h1, if_pos h2]
    · by_cases h3 : 1024 < 2 * w.toNat
      · simp only [if_neg h1, if_neg h2, if_pos h3]
      · simp only [if_neg h1, if_neg h2, if_neg h3]

theorem startStep_accepted (hp : s.phase = .idle) (hop : op.toNat < 2)
    (hm : m ∈ [0x01#8, 0x02#8, 0x03#8, 0x80#8, 0xE0#8]) (hw : w.toNat ≤ 512) :
    s.startStep op m c w = s.acceptRequest op m c w := by
  rw [startStep_idle hp, if_neg (by omega), if_neg (not_not.mpr hm), if_neg (by omega)]

theorem startStep_illegal_op (hp : s.phase = .idle) (hop : 2 ≤ op.toNat) :
    s.startStep op m c w = s.refuseRequest .illegalRequest := by
  rw [startStep_idle hp, if_pos hop]

theorem startStep_illegal_module (hp : s.phase = .idle) (hm : m ∉ [0x01#8, 0x02#8, 0x03#8, 0x80#8, 0xE0#8]) :
    s.startStep op m c w = s.refuseRequest .illegalRequest := by
  rw [startStep_idle hp, if_pos hm, ite_self]

theorem startStep_over_capacity (hp : s.phase = .idle) (hop : op.toNat < 2)
    (hm : m ∈ [0x01#8, 0x02#8, 0x03#8, 0x80#8, 0xE0#8]) (hw : 1024 < 2 * w.toNat) :
    s.startStep op m c w = s.refuseRequest .capacityError := by
  rw [startStep_idle hp, if_neg (by omega), if_neg (not_not.mpr hm), if_pos hw]

/-- Settles O15: no check refuses the request. -/
theorem acceptedRequestsEnterTheirFirstWait : Obligations.AcceptedRequestsEnterTheirFirstWait :=
  fun _ _ _ _ hp hm hw => ⟨congrArg Host.Outcome.next (startStep_accepted hp (by decide) hm hw),
    congrArg Host.Outcome.next (startStep_accepted hp (by decide) hm hw)⟩

/-- Settles O16: the operation is checked first. -/
theorem runAndOp3RequestsAreIllegal : Obligations.RunAndOp3RequestsAreIllegal :=
  fun _ _ _ _ hp => ⟨congrArg Host.Outcome.next (startStep_illegal_op hp (by decide)),
    congrArg Host.Outcome.next (startStep_illegal_op hp (by decide))⟩

/-- Settles O17: the module is checked before the count. -/
theorem readAndWriteRefusalsByModuleThenCapacity : Obligations.ReadAndWriteRefusalsByModuleThenCapacity :=
  fun _ _ _ _ hp => ⟨fun hm => ⟨congrArg Host.Outcome.next (startStep_illegal_module hp hm),
      congrArg Host.Outcome.next (startStep_illegal_module hp hm)⟩,
    fun hm hw => ⟨congrArg Host.Outcome.next (startStep_over_capacity hp (by decide) hm hw),
      congrArg Host.Outcome.next (startStep_over_capacity hp (by decide) hm hw)⟩⟩

/-- A field of the request word is the quotient of its number by the power of two below it (10_state.md R21). -/
theorem extractLsb'_eq_ofNat_div (q : ReqWord) (start len : Nat) :
    q.extractLsb' start len = BitVec.ofNat len (q.toNat / 2 ^ start) := by
  rw [← Nat.shiftRight_eq_div_pow]; rfl

/-- 30_encoding.md R107: the six bits above `OP` are not all 0. -/
theorem reservedBits_ne_zero : q.extractLsb' 34 6 ≠ 0#6 ↔ 4 ≤ q.toNat / 4294967296 := by
  have := q.isLt
  rw [extractLsb'_eq_ofNat_div, ne_eq, ← BitVec.toNat_inj, BitVec.toNat_ofNat, BitVec.toNat_ofNat]
  omega

/-- 44_engine_operations.md R160, R161: the start step on the fields of the word on the port. -/
theorem engineStep_request_fields (hp : s.phase = .idle) (hq : s.hreq = some q) :
    engineStep s = .next (
      if q.extractLsb' 34 6 ≠ 0#6 then State.refuseRequest .illegalRequest { s with hreq := none }
      else State.startStep (q.extractLsb' 32 2) (q.extractLsb' 24 8) (q.extractLsb' 16 8) (q.extractLsb' 0 16)
        { s with hreq := none }) := by
  rw [engineStep_request hp hq, if_congr reservedBits_ne_zero.symm rfl rfl]
  simp only [extractLsb'_eq_ofNat_div, Nat.pow_zero, Nat.div_one]
  rfl

/-- Settles O18: the reserved bits are judged first, then the fields. -/
theorem startStepJudgesTheRawRequestWord : Obligations.StartStepJudgesTheRawRequestWord := by
  intro q s hp hq hh
  rw [step_of_no_host hh, engineStep_request_fields hp hq, startStep_idle (by exact hp)]
  rfl

/-- 10_state.md R21: the start step takes the word off the port. -/
theorem startStep_hreq (hp : s.phase = .idle) : (s.startStep op m c w).hreq = none := by
  obtain ⟨k, -, -, e⟩ | ⟨-, -, -, e⟩ := startStep_cases op m c w hp <;> rw [e] <;> rfl

/-- Settles O47: the idle engine accepts the write, and its step follows at once. -/
theorem hreqWriteIsTakenByTheStartStep : Obligations.HreqWriteIsTakenByTheStartStep := by
  intro q rest s hb hq hp hh
  have served : step s = engineStep { s with hreq := some q, world := { s.world with host := rest } } := by
    have accepting : (HostAct.neverHeld (.writeHreq q) || s.accepting) = true := by simp [State.accepting, hb, hq]
    simp only [step, State.hostTurn, hh, if_pos accepting]
    rfl
  refine ⟨served, _, served.trans (engineStep_request_fields (by exact hp) rfl), ?_⟩
  split_ifs
  · rfl
  · exact startStep_hreq hp

end StartStep

/-! ## The steps of the two operations

A frame in a phase of its own, and outside them; the responses. -/

section Steps

variable {s : State} {p : Phase} {own : List Phase} {frame bs : List Byte} {b0 b1 : Byte} {len : Half}

/-- 44_engine_operations.md R164 to R172: the frame of the running phase moves the sequencer on, or ends the operation
with `BUS_ERROR`. -/
theorem sendFrame_own (hp : s.phase = p) (ho : p ∈ own) (running : p ≠ .idle) :
    s.sendFrame frame (State.advanceFrom own) =
      if s.nextCount = (frame.length : Int) then (s.afterWrite frame).enterPhase (Phase.next p)
      else { s.afterWrite frame with resKind := .busError, busy := false, done := true, phase := .idle } := by
  subst hp
  split_ifs with taken
  · rw [sendFrame_ok _ taken, advanceFrom_own (by exact ho)]; rfl
  · rw [sendFrame_error _ taken, fail_running _ (by exact running)]; rfl

/-- A frame outside its phases: the write alone, and the error entry where an operation runs (log entries 9, 10). -/
def State.sentOutside (frame : List Byte) (s : State) : State :=
  if s.nextCount = (frame.length : Int) ∨ s.phase = .idle then s.afterWrite frame
  else { s.afterWrite frame with resKind := .busError, busy := false, done := true, phase := .idle }

theorem sendFrame_outside {k : State → State} (hk : k (s.afterWrite frame) = s.afterWrite frame) :
    s.sendFrame frame k = s.sentOutside frame := by
  by_cases idle : s.phase = .idle
  · rw [sendFrame_idle idle frame hk, State.sentOutside, if_pos (.inr idle)]
  · by_cases taken : s.nextCount = (frame.length : Int)
    · rw [sendFrame_ok _ taken, hk, State.sentOutside, if_pos (.inl taken)]
    · rw [sendFrame_error _ taken, fail_running _ (by exact idle), State.sentOutside, if_neg (by simp [taken, idle])]
      rfl

theorem sendFrame_advanceFrom_outside (ho : s.phase ∉ own) :
    s.sendFrame frame (State.advanceFrom own) = s.sentOutside frame :=
  sendFrame_outside (advanceFrom_other (by exact ho))

theorem exec_lenWr (h : Instr.wellFormed s.build.writeLenMode (.lenWr len) = true) :
    exec (.lenWr len) s = .next (s.sendFrame (lengthFrame len) (State.advanceFrom [.wrLen])) := if_pos h

theorem wellFormed_lenWr_iff {mode : WriteLenMode} :
    Instr.wellFormed mode (.lenWr len) = true ↔ mode = .full16 ∨ len.toNat < 256 := by
  simp [Instr.wellFormed]

theorem exec_dataWr (even : bs.length % 2 = 0) (fits : bs.length ≤ 1024) :
    exec (.dataWr bs) s = .next (s.sendFrame (payloadFrame bs) (State.advanceFrom [.wrData])) :=
  if_pos (payloadOk_iff.mpr ⟨even, fits⟩)

theorem exec_dataRsp (even : bs.length % 2 = 0) (fits : bs.length ≤ 1024) :
    exec (.dataRsp bs) s = .next (s.storeResponse bs) :=
  (if_neg (Nat.not_lt.mpr fits)).trans (if_pos (payloadOk_iff.mpr ⟨even, fits⟩))

/-- 42_command_encoder.md R142: `LOW_BYTE` announces the low byte of the count as a number. -/
theorem writeLenField_lowByte (wc : Half) : writeLenField .lowByte wc = BitVec.ofNat 16 (wc.toNat % 256) := by
  apply BitVec.eq_of_toNat_eq
  rw [writeLenField, be16_toNat, lo8_toNat, BitVec.toNat_ofNat, BitVec.toNat_ofNat]
  omega

/-- The step of `WR_LEN` is the row of the length field that the build's mode selects. -/
theorem engineStep_wrLen_exec (hp : s.phase = .wrLen) :
    engineStep s = exec (.lenWr (writeLenField s.build.writeLenMode s.rWc)) s :=
  (engineStep_wrLen hp).trans (exec_lenWr (writeLenField_wf _ _)).symm

/-- Settles O21. -/
theorem lenRdStep : Obligations.LenRdStep :=
  fun _ _ hp => ⟨engineStep_rdLen hp, congrArg Host.Outcome.next (sendFrame_own hp (by decide) (by decide))⟩

/-- Settles O22: the latched module selects the row. -/
theorem commandStepOfReadEntersTheCompletionWait : Obligations.CommandStepOfReadEntersTheCompletionWait := by
  intro m k s hp
  refine ⟨fun hm => ?_, (exec_commandInstr m k s).trans
    (congrArg Host.Outcome.next (sendFrame_own hp (by decide) (by decide)))⟩
  rw [engineStep_rdCmd hp (ModuleId.ofByte_eq_some.mpr hm), exec_commandInstr]

/-- Settles O23: `SET` adds 1 to the command id. -/
theorem commandStepOfWriteEntersTheCompletionWait : Obligations.CommandStepOfWriteEntersTheCompletionWait := by
  intro m k s hp
  refine ⟨fun hm => ?_, (exec_commandInstr m k s).trans
    (congrArg Host.Outcome.next (sendFrame_own hp (by decide) (by decide)))⟩
  have opcode : s.rCmdid + 1#8 = BitVec.ofNat 8 ((s.rCmdid.toNat + 1) % 256) := opcodeByte_eq_ofNat s.rCmdid .set
  rw [engineStep_wrCmd hp (ModuleId.ofByte_eq_some.mpr hm), exec_commandInstr, opcode]

/-- Settles O24. -/
theorem dataSelStep : Obligations.DataSelStep :=
  fun _ hp => ⟨engineStep_rdSel hp, congrArg Host.Outcome.next (sendFrame_own hp (by decide) (by decide))⟩

/-- Settles O25: the step is the row of the counted run of `TXBUF`. -/
theorem dataWrStepSendsTxbuf : Obligations.DataWrStepSendsTxbuf := by
  intro p s hp
  constructor
  · intro fits
    have run : (s.txRun (byteLen s.rWc)).length = 2 * s.rWc.toNat := txRun_length s _
    exact (engineStep_wrData hp (Nat.mul_le_mul_left 2 fits)).trans (exec_dataWr (by omega) (by omega)).symm
  · intro even fits
    have count : ((payloadFrame p).length : Int) = (p.length : Int) + 2 := by simp
    rw [exec_dataWr even fits, sendFrame_own hp (by decide) (by decide), count]
    rfl

/-- Settles O26: the mode selects the length field, and admits it. -/
theorem lenWrStepByMode : Obligations.LenWrStepByMode := by
  intro len s hp
  refine ⟨fun low => ?_, fun full => ?_, fun admitted => ?_⟩
  · rw [engineStep_wrLen_exec hp, low, writeLenField_lowByte]
  · rw [engineStep_wrLen_exec hp, full, writeLenField]
  · rw [exec_lenWr (wellFormed_lenWr_iff.mpr admitted), sendFrame_own hp (by decide) (by decide)]
    rfl

/-- 41_ready_synchronizer.md R132: no phase but the four waits is one. -/
theorem not_isWait_of_notMem (h : s.phase ∉ [Phase.rdWaitA, .rdWaitB, .wrWaitA, .wrWaitB]) :
    ¬ Phase.isWait s.phase = true := fun wait => h (by simpa using isWait_iff.mp wait)

/-- Settles O27: no row's continuation moves a phase that is not its own. -/
theorem rowsOutsideTheirPhaseLeaveTheSequencer : Obligations.RowsOutsideTheirPhaseLeaveTheSequencer := by
  intro m k b0 b1 len p s
  have outside {own : List Phase} (frame : List Byte) (ho : s.phase ∉ own) :
      Host.Outcome.next (s.sendFrame frame (State.advanceFrom own)) =
        (.next (s.sentOutside frame) : Host.Outcome State Fault Refusal) :=
    congrArg Host.Outcome.next (sendFrame_advanceFrom_outside ho)
  refine ⟨fun hp => ?_, fun hp => outside _ (by simpa using hp), fun hp => outside _ (by simpa using hp),
    fun hp admitted => ?_, fun hr hw => ?_, fun hp even fits => ?_, fun hp => ?_, fun hp even fits => ?_⟩
  · exact congrArg Host.Outcome.next (sendFrame_outside (if_neg (not_isWait_of_notMem hp)))
  · rw [exec_lenWr (wellFormed_lenWr_iff.mpr admitted)]; exact outside _ (by simpa using hp)
  · rw [exec_commandInstr]; exact outside _ (by simp [hr, hw])
  · rw [exec_dataWr even fits]; exact outside _ (by simpa using hp)
  · exact congrArg Host.Outcome.next (if_neg (not_isWait_of_notMem hp))
  · rw [exec_dataRsp even fits, State.storeResponse, if_neg hp]

/-- Settles O30: the wait is the last one, and its status is ready. -/
theorem readyStatusCompletesWriteDataWithItsCode : Obligations.ReadyStatusCompletesWriteDataWithItsCode := by
  intro b0 b1 s booted free hp
  have status : decodeStatusBytes b0 b1 = { code := b0, booted := true, bootMode := b1.getLsbD 1, busy := false } := by
    rw [decodeStatusBytes, booted, free]
  rw [exec_statusRsp_wait (by rw [hp]; rfl), status, resolveWait_ready rfl, leaveWait_last _ (by exact hp)]
  rfl

/-- 10_state.md R27: a run from index 0 holds its own bytes, and the buffer is as before beyond it. -/
theorem read_writeRun_zero_of_lt (m : Memory) {i : Nat} (h : i < bs.length) :
    Memory.read (Memory.writeRun m 0 bs) i = bs[i]? := by
  rw [Memory.read_writeRun, if_pos (by omega), Nat.sub_zero]

theorem read_writeRun_zero_of_le (m : Memory) {i : Nat} (h : bs.length ≤ i) :
    Memory.read (Memory.writeRun m 0 bs) i = Memory.read m i := by
  rw [Memory.read_writeRun, if_neg (by omega)]

theorem storeResponse_rdData (hp : s.phase = .rdData) :
    s.storeResponse bs = { s with
      rxbuf := Memory.writeRun s.rxbuf 0 bs, resLen := BitVec.ofNat 16 bs.length, resKind := .ok
      busy := false, done := true, phase := .idle } := if_pos hp

/-- Settles O32: the response is the run written from index 0. -/
theorem dataResponseFillsRxbufAndCompletes : Obligations.DataResponseFillsRxbufAndCompletes := by
  intro p s hp even fits
  refine ⟨_, exec_dataRsp even fits, ?_⟩
  rw [storeResponse_rdData hp]
  exact ⟨rfl, fun _ => read_writeRun_zero_of_lt _, fun _ => read_writeRun_zero_of_le _⟩

/-- Settles O35: a read of the whole count runs as `DATA_RSP`; another ends the operation, and the unspecified bytes are a
run from index 0. -/
theorem dataReadStep : Obligations.DataReadStep := by
  intro s hp hh fits
  have capacity : byteLen s.rWc ≤ Config.capBytes := Nat.mul_le_mul_left 2 fits
  rw [step_of_no_host hh]
  refine ⟨fun p answer len => ?_, fun failed => ?_⟩
  · have even : p.length % 2 = 0 := by omega
    have runs : engineStep s = exec (.dataRsp p) (s.afterRead (2 * s.rWc.toNat)) :=
      (engineStep_rdData hp capacity answer len).trans (exec_dataRsp even (by omega)).symm
    obtain ⟨t, ht, stored⟩ :=
      dataResponseFillsRxbufAndCompletes p (s.afterRead (2 * s.rWc.toNat)) hp even (by omega)
    exact ⟨runs, t, runs.trans ht, stored⟩
  · have failed : ReadAnswer.count s.nextRead ≠ (byteLen s.rWc : Int) := by simpa [byteLen] using failed
    refine ⟨_, engineStep_rdData_error hp capacity failed, ?_⟩
    rw [fail_running _ (by simp [State.spoilRx, hp])]
    exact ⟨rfl, fun i hi => read_writeRun_zero_of_le s.rxbuf (by simpa [byteLen] using hi)⟩

end Steps

/-! ## A running operation ends

Each step of an operation leaves fewer transactions to come, and none of them stops the machine. -/

section Ending

variable {s t : State} {w : World} {b : Nat}

/-- 44_engine_operations.md R178: the most transactions an operation makes after the phase, with a retry budget of `b`. -/
def Phase.stepsAfter (b : Nat) : Phase → Nat
  | .idle => 0
  | .rdWaitA => 2 * (b + 1) + 4
  | .rdLen => 2 * (b + 1) + 3
  | .rdCmd => 2 * (b + 1) + 2
  | .rdWaitB => 2
  | .rdSel => 1
  | .rdData => 0
  | .wrWaitA => 2 * (b + 1) + 3
  | .wrData => 2 * (b + 1) + 2
  | .wrLen => 2 * (b + 1) + 1
  | .wrCmd => 2 * (b + 1)
  | .wrWaitB => 0

/-- 41_ready_synchronizer.md R136: the most transactions a wait makes from here: those of the probe at hand, and two for each
try left. -/
def State.probeStepsLeft (s : State) : Nat :=
  match s.poll with
  | .sel => 2 * s.tries.toNat + 2
  | .read => 2 * s.tries.toNat + 1

/-- 44_engine_operations.md R178: the most transactions a running operation makes from here. -/
def State.stepsLeft (s : State) : Nat :=
  (if Phase.isWait s.phase then s.probeStepsLeft else 1) + Phase.stepsAfter s.build.retryBudget.toNat s.phase

theorem stepsLeft_sel (wait : Phase.isWait s.phase = true) (sel : s.poll = .sel) :
    s.stepsLeft = 2 * s.tries.toNat + 2 + Phase.stepsAfter s.build.retryBudget.toNat s.phase := by
  rw [State.stepsLeft, if_pos wait, State.probeStepsLeft, sel]

theorem stepsLeft_read (wait : Phase.isWait s.phase = true) (read : s.poll = .read) :
    s.stepsLeft = 2 * s.tries.toNat + 1 + Phase.stepsAfter s.build.retryBudget.toNat s.phase := by
  rw [State.stepsLeft, if_pos wait, State.probeStepsLeft, read]

theorem stepsLeft_frame (frame : Phase.isWait s.phase = false) :
    s.stepsLeft = 1 + Phase.stepsAfter s.build.retryBudget.toNat s.phase := by
  rw [State.stepsLeft, if_neg (by simp [frame])]

/-- The phase at hand makes one transaction at least, and no more than a probe for now and one for each try left. -/
theorem stepsLeft_bounds (s : State) :
    Phase.stepsAfter s.build.retryBudget.toNat s.phase < s.stepsLeft ∧
    s.stepsLeft ≤ 2 * s.tries.toNat + 2 + Phase.stepsAfter s.build.retryBudget.toNat s.phase := by
  cases wait : Phase.isWait s.phase with
  | false => rw [stepsLeft_frame wait]; omega
  | true =>
    cases poll : s.poll with
    | sel => rw [stepsLeft_sel wait poll]; omega
    | read => rw [stepsLeft_read wait poll]; omega

/-! 10_state.md R37: what the phase that follows a phase is. -/

theorem next_of_frame {p : Phase} (own : p ∈ [Phase.rdLen, .rdSel, .wrData, .wrLen]) :
    Phase.next p ≠ .idle ∧ Phase.isWait (Phase.next p) = false := by
  revert own; cases p <;> decide

theorem next_of_command {p : Phase} (own : p ∈ [Phase.rdCmd, .wrCmd]) :
    Phase.next p ≠ .idle ∧ Phase.isWait (Phase.next p) = true := by
  revert own; cases p <;> decide

theorem next_of_wait {p : Phase} (wait : Phase.isWait p = true) (more : p ≠ .wrWaitB) :
    Phase.next p ≠ .idle ∧ Phase.isWait (Phase.next p) = false := by
  revert wait more; cases p <;> decide

/-- What follows a phase is the next one, with a whole budget where that is a wait, and what follows it. -/
theorem stepsAfter_eq {p : Phase} (more : Phase.next p ≠ .idle) :
    Phase.stepsAfter b p =
      (if Phase.isWait (Phase.next p) then 2 * b + 2 else 1) + Phase.stepsAfter b (Phase.next p) := by
  cases p with
  | idle | rdData | wrWaitB => exact absurd rfl more
  | _ => simp [Phase.next, Phase.isWait, Phase.stepsAfter] <;> omega

theorem stepsAfter_le (b : Nat) (p : Phase) : Phase.stepsAfter b p ≤ 2 * (b + 1) + 4 := by
  cases p <;> simp only [Phase.stepsAfter] <;> omega

/-- 44_engine_operations.md R178: the bound on a whole operation, for every retry budget. -/
theorem State.Inv.stepsLeft_le (hi : s.Inv) : s.stepsLeft ≤ 4 * s.build.retryBudget.toNat + 8 := by
  have tries := hi.triesBound
  have after := stepsAfter_le s.build.retryBudget.toNat s.phase
  have bound := (stepsLeft_bounds s).2
  omega

/-- A step that ends no operation and is in no wait moves on to the next phase. -/
theorem RunStep.stepsLeft_lt (frame : Phase.isWait s.phase = false) (h : RunStep s w t) :
    t.phase = .idle ∨ t.stepsLeft < s.stepsLeft := by
  cases h with
  | selected wait | retried _ wait | leftWait _ wait => simp [frame] at wait
  | sent own =>
    right
    obtain ⟨more, noWait⟩ := next_of_frame own
    rw [stepsLeft_frame frame, stepsAfter_eq more, stepsLeft_frame (by exact noWait), if_neg (by simp [noWait])]
    exact Nat.lt_add_of_pos_left Nat.one_pos
  | sentCommand own =>
    right
    obtain ⟨more, wait⟩ := next_of_command own
    rw [stepsLeft_frame frame, stepsAfter_eq more, stepsLeft_sel (by exact wait) rfl, if_pos wait]
    exact Nat.lt_add_of_pos_left Nat.one_pos
  | _ => exact .inl rfl

/-- The select write of a probe leaves its read; the read leaves the next probe with one try less, or the next phase. -/
theorem stepsLeft_lt_of_wait (wait : Phase.isWait s.phase = true) (h : engineStep s = .next t) :
    t.phase = .idle ∨ t.stepsLeft < s.stepsLeft := by
  cases poll : s.poll with
  | sel =>
    rw [engineStep_wait_sel wait poll] at h
    cases h
    by_cases taken : s.nextCount = 2
    · right
      rw [sendFrame_statusSel_taken wait taken, stepsLeft_sel wait poll, stepsLeft_read (by exact wait) rfl]
      exact Nat.add_lt_add_right (Nat.lt_add_one (2 * s.tries.toNat + 1)) _
    · left
      rw [sendFrame_statusSel_failed taken, fail_phase]
  | read =>
    by_cases hr : s.readSucceeds 2 = true
    · obtain ⟨b0, b1, answer⟩ := two_of_readSucceeds hr
      rw [engineStep_wait_read wait poll answer] at h
      cases h
      obtain ⟨-, e⟩ | ⟨-, -, e⟩ | ⟨-, left, e⟩ :=
        resolveWait_cases (s := (s.afterRead 2).latchStat (decodeStatusBytes b0 b1)) (decodeStatusBytes b0 b1)
      · by_cases last : s.phase = .wrWaitB
        · left; rw [e, leaveWait_last _ (by exact last)]
        · right
          obtain ⟨more, noWait⟩ := next_of_wait wait last
          rw [e, leaveWait_next _ (by exact last), stepsLeft_read wait poll, stepsAfter_eq more,
            stepsLeft_frame (by exact noWait), if_neg (by simp [noWait])]
          exact Nat.lt_add_of_pos_left (Nat.succ_pos _)
      · left; rw [e, fail_phase]
      · right
        have less : (s.tries - 1#8).toNat + 1 = s.tries.toNat := by
          have left : s.tries ≠ 0#8 := left
          bv_omega
        rw [e, stepsLeft_read wait poll, ← less, stepsLeft_sel (by exact wait) rfl]
        exact Nat.add_lt_add_right (Nat.lt_add_one (2 * (s.tries - 1#8).toNat + 2)) _
    · left
      rw [engineStep_wait_error wait poll (fun e => hr (readSucceeds_iff.mpr e))] at h
      cases h
      exact fail_phase _

/-- 44_engine_operations.md R178: a step ends the operation, or leaves fewer transactions to come. -/
theorem stepsLeft_lt_of_engineStep (running : s.phase ≠ .idle) (h : engineStep s = .next t) :
    t.phase = .idle ∨ t.stepsLeft < s.stepsLeft := by
  cases wait : Phase.isWait s.phase with
  | true => exact stepsLeft_lt_of_wait wait h
  | false =>
    obtain ⟨w, -, run⟩ := runStep_of_engineStep running h
    exact run.stepsLeft_lt wait

/-- A step of a wait answers, whatever the device does. -/
theorem exists_engineStep_of_wait (wait : Phase.isWait s.phase = true) : ∃ t, engineStep s = .next t := by
  cases poll : s.poll with
  | sel => exact ⟨_, engineStep_wait_sel wait poll⟩
  | read =>
    by_cases hr : s.readSucceeds 2 = true
    · obtain ⟨b0, b1, answer⟩ := two_of_readSucceeds hr
      exact ⟨_, engineStep_wait_read wait poll answer⟩
    · exact ⟨_, engineStep_wait_error wait poll fun e => hr (readSucceeds_iff.mpr e)⟩

/-- 60_exceptions.md R200: with legal latches no step of an operation stops the machine. -/
theorem State.Inv.exists_engineStep (hi : s.Inv) (running : s.phase ≠ .idle) : ∃ t, Machine.engineStep s = .next t := by
  obtain ⟨m, module⟩ := Option.ne_none_iff_exists'.mp (hi.moduleLegal running)
  have capacity : byteLen s.rWc ≤ Config.capBytes := Nat.mul_le_mul_left 2 (hi.countFits running)
  cases hp : s.phase with
  | idle => exact absurd hp running
  | rdWaitA | rdWaitB | wrWaitA | wrWaitB => exact exists_engineStep_of_wait (by rw [hp]; rfl)
  | rdLen => exact ⟨_, engineStep_rdLen hp⟩
  | rdCmd => exact ⟨_, engineStep_rdCmd hp module⟩
  | rdSel => exact ⟨_, engineStep_rdSel hp⟩
  | wrData => exact ⟨_, engineStep_wrData hp capacity⟩
  | wrLen => exact ⟨_, engineStep_wrLen hp⟩
  | wrCmd => exact ⟨_, engineStep_wrCmd hp module⟩
  | rdData =>
    by_cases hr : s.readSucceeds (byteLen s.rWc) = true
    · obtain ⟨answer, len⟩ := bytes_of_readSucceeds hr
      exact ⟨_, engineStep_rdData hp capacity answer len⟩
    · exact ⟨_, engineStep_rdData_error hp capacity fun e => hr (readSucceeds_iff.mpr e)⟩

/-- 44_engine_operations.md R175, 60_exceptions.md R198: an operation that ends leaves `BUSY` = 0 and `DONE` = 1. -/
theorem RunStep.ended (running : s.phase ≠ .idle) (h : RunStep s w t) (idle : t.phase = .idle) :
    t.busy = false ∧ t.done = true := by
  cases h with
  | selected | retried => exact absurd idle running
  | leftWait _ wait more => exact absurd idle (next_of_wait wait more).1
  | sent own => exact absurd idle (next_of_frame own).1
  | sentCommand own => exact absurd idle (next_of_command own).1
  | _ => exact ⟨rfl, rfl⟩

/-- A running operation ends within any bound on the transactions it has left. -/
theorem State.Inv.reachesWithin_end {n : Nat} (hi : s.Inv) (running : s.phase ≠ .idle) (hh : s.world.host = [])
    (bound : s.stepsLeft ≤ n) :
    ∃ t, ReachesWithin n s t ∧ t.phase = .idle ∧ t.busy = false ∧ t.done = true := by
  induction n generalizing s with
  | zero => exact absurd bound (Nat.not_le.mpr (Nat.zero_lt_of_lt (stepsLeft_bounds s).1))
  | succ n ih =>
    obtain ⟨u, hu⟩ := hi.exists_engineStep running
    obtain ⟨w, -, run⟩ := runStep_of_engineStep running hu
    by_cases idle : u.phase = .idle
    · exact ⟨u, .of_engineStep running hh hu (.refl n u), idle, run.ended running idle⟩
    · have less := (stepsLeft_lt_of_engineStep running hu).resolve_left idle
      obtain ⟨t, reaches, ended⟩ :=
        ih (hi.engineStep hu) idle ((after_of_engineStep hu).host.trans hh) (by omega)
      exact ⟨t, .of_engineStep running hh hu reaches, ended⟩

/-- Settles O56: the bound on a whole operation is 48 when the budget is 10. -/
theorem everyOperationEndsWithin48Transactions : Obligations.EveryOperationEndsWithin48Transactions := by
  intro s hi running hh budget
  have bound : s.stepsLeft ≤ 48 := by simpa [budget] using hi.stepsLeft_le
  obtain ⟨t, ⟨k, hk, run, count⟩, idle, ended⟩ := hi.reachesWithin_end running hh bound
  refine ⟨k, t, Nat.one_le_iff_ne_zero.mpr fun zero => ?_, hk, run, idle, ended.1, ended.2, count⟩
  subst zero
  cases run
  exact running idle

end Ending

/-! ## Whole operations

The parts of an operation against a device whose answers are listed: the request, the two waits, and the frames and the read
between them. Each part is an exact run; the whole operations put them one after the other. -/

section WholeOperations

variable {s t u : State} {j k : Nat} {p : Phase} {own : List Phase} {frame bs : List Byte} {r : Int}
  {op : BitVec 2} {m : ModuleId} {b c : Byte} {w : Half}
  {ws : List Int} {as : List ReadAnswer} {waits : List (Byte × Byte)} {last : Byte × Byte}

theorem runSteps_trans (h : runSteps j s = .next t) (h' : runSteps k t = .next u) : runSteps (j + k) s = .next u := by
  induction j generalizing s with
  | zero => cases h; rwa [Nat.zero_add]
  | succ j ih =>
    rw [Nat.succ_add]
    rw [runSteps] at h ⊢
    cases hs : step s with
    | next v => rw [hs] at h; exact ih h
    | fault f => rw [hs] at h; cases h
    | refused f => rw [hs] at h; cases h

theorem runSteps_cons (hh : s.world.host = []) (h : engineStep s = .next t) (h' : runSteps k t = .next u) :
    runSteps (k + 1) s = .next u := by
  rw [runSteps, step_of_no_host hh, h]; exact h'

theorem runSteps_one (hh : s.world.host = []) (h : engineStep s = .next t) : runSteps 1 s = .next t :=
  runSteps_cons hh h rfl

/-- 00_scope.md R15, R16: the transactions `events` are on the trace, and `ws` and `as` are the answers still to come. -/
def State.exchanged (events : List BusEvent) (ws : List Int) (as : List ReadAnswer) (s : State) : State :=
  { s with world := { s.world with
      writeAnswers := ws, readAnswers := as
      trace := s.world.trace ++ events, tick := s.world.tick + events.length } }

theorem nextCount_of_answers (writes : s.world.writeAnswers = r :: ws) : s.nextCount = r := by
  rw [State.nextCount, writes]

theorem nextRead_of_answers {a : ReadAnswer} (reads : s.world.readAnswers = a :: as) : s.nextRead = a := by
  rw [State.nextRead, reads]

theorem afterWrite_of_answers (writes : s.world.writeAnswers = r :: ws) :
    s.afterWrite frame = s.exchanged [.wrote frame r] ws s.world.readAnswers := by
  rw [State.afterWrite, nextCount_of_answers writes, writes]; rfl

theorem afterRead_of_answers (reads : s.world.readAnswers = .delivered bs :: as) (n : Nat) :
    s.afterRead n = s.exchanged [.readBack n bs.length bs] s.world.writeAnswers as := by
  rw [State.afterRead, nextRead_of_answers reads, reads]; rfl

/-- The row that the word on the port decodes to runs with the port empty (10_state.md R21). -/
theorem engineStep_of_decode {q : ReqWord} {i : Instr} (hp : s.phase = .idle) (hq : s.hreq = some q)
    (hd : decode .request (requestBytes q) = .ok i) : engineStep s = exec i { s with hreq := none } := by
  simp only [engineStep, State.fetch, hp, State.fetchIdle, hq, hd]

/-- 44_engine_operations.md R160: the start step on a request word of given fields. -/
theorem engineStep_requestWord (hp : s.phase = .idle) (hq : s.hreq = some (requestWord op b c w)) :
    engineStep s = .next (State.startStep op b c w { s with hreq := none }) := by
  have ops : op = 0#2 ∨ op = 1#2 ∨ op = 2#2 ∨ op = 3#2 := by clear hq; revert op; decide
  rw [engineStep_of_decode hp hq (decode_requestWord op b c w)]
  obtain rfl | rfl | rfl | rfl := ops <;> rfl

theorem engineStep_accepted (hp : s.phase = .idle) (hq : s.hreq = some (requestWord op (ModuleId.code m) c w))
    (hop : op.toNat < 2) (fits : w.toNat ≤ 512) :
    engineStep s = .next (s.acceptRequest op (ModuleId.code m) c w) := by
  have legal : ModuleId.code m ∈ [0x01#8, 0x02#8, 0x03#8, 0x80#8, 0xE0#8] := ModuleId.ofByte_ne_none.mp (by simp)
  rw [engineStep_requestWord hp hq, startStep_accepted (by exact hp) hop legal fits]; rfl

/-! ### The waits -/

/-- A wait has heard the status of `last`, which ends it, after those of `waits`, which used one try each. -/
def State.heard (waits : List (Byte × Byte)) (last : Byte × Byte) (ws : List Int) (as : List ReadAnswer) (s : State) :
    State :=
  { s.exchanged (probeTrace (waits ++ [last])) ws as with
    stat := decodeStatusBytes last.1 last.2, sv := true, poll := .read, sync := .ready
    tries := s.tries - BitVec.ofNat 8 waits.length }

theorem probeTrace_length (rs : List (Byte × Byte)) : (probeTrace rs).length = 2 * rs.length := by
  induction rs with
  | nil => rfl
  | cons x rest ih => simp only [probeTrace, List.length_cons, ih]; omega

theorem leaveWait_world (st : DeviceStatus) : (State.leaveWait st s).world = s.world := by
  rw [State.leaveWait]; split_ifs <;> rfl

/-- A wait at the start of a probe, against a device that takes every select write, is not ready for the statuses `waits`,
as many as the tries left at most, and is ready for `last`; `ws` and `as` are its answers after the wait. -/
structure State.BecomesReady (waits : List (Byte × Byte)) (last : Byte × Byte) (ws : List Int) (as : List ReadAnswer)
    (s : State) : Prop where
  sel : s.poll = .sel
  host : s.world.host = []
  fits : waits.length ≤ s.tries.toNat
  notReady : ∀ x ∈ waits, readyBytes x = false
  ready : readyBytes last = true
  writes : s.world.writeAnswers = List.replicate (waits.length + 1) 2 ++ ws
  reads : s.world.readAnswers = probeAnswers (waits ++ [last]) ++ as

/-- 41_ready_synchronizer.md R133, 44_engine_operations.md R180: such a wait is left after exactly those probes. That the
sequencer's wait is the loop of `WAIT_READY` gives the state, and the events on the trace count the steps. -/
theorem runSteps_wait (wait : Phase.isWait s.phase = true) (h : s.BecomesReady waits last ws as) :
    runSteps (2 * (waits.length + 1)) s =
      .next (State.leaveWait (decodeStatusBytes last.1 last.2) (s.heard waits last ws as)) := by
  have length : (probeTrace (waits ++ [last])).length = 2 * (waits.length + 1) := by
    rw [probeTrace_length, List.length_append, List.length_singleton]
  have loop := waitLoop_of_answers (k := s.tries.toNat - waits.length) h.notReady (waitEnds_ready h.ready) h.writes h.reads
  rw [Nat.add_sub_of_le h.fits] at loop
  have waited : s.waited = State.leaveWait (decodeStatusBytes last.1 last.2) (s.heard waits last ws as) := by
    rw [State.waited, loop, State.heard, State.exchanged, length]; rfl
  obtain ⟨k, -, run, count⟩ := reachesWithin_waited wait h.sel h.host
  rw [waited] at run count
  have probes : k = 2 * (waits.length + 1) := by
    rw [leaveWait_world, State.heard, State.exchanged, List.length_append, length] at count
    exact (Nat.add_left_cancel count).symm
  rw [← probes, run]

/-- A wait that is not the last of a `WRITE_DATA`. -/
theorem runSteps_wait_next (hp : s.phase = p) (wait : Phase.isWait p = true) (more : p ≠ .wrWaitB)
    (h : s.BecomesReady waits last ws as) :
    runSteps (2 * (waits.length + 1)) s = .next { s.heard waits last ws as with phase := Phase.next p } := by
  subst hp
  rw [runSteps_wait wait h, leaveWait_next _ (by exact more)]; rfl

/-- 44_engine_operations.md R173 to R175: the last wait of a `WRITE_DATA`. -/
theorem runSteps_wait_last (hp : s.phase = .wrWaitB) (h : s.BecomesReady waits last ws as) :
    runSteps (2 * (waits.length + 1)) s = .next { s.heard waits last ws as with
      resStatus := last.1, resKind := .ok, busy := false, done := true, phase := .idle } := by
  rw [runSteps_wait (by rw [hp]; rfl) h, leaveWait_last _ (by exact hp)]; rfl

/-! ### The frames and the data read -/

/-- 44_engine_operations.md R164 to R172: a frame that the device takes whole. -/
theorem engineStep_sent (h : engineStep s = .next (s.sendFrame frame (State.advanceFrom own))) (hp : s.phase = p)
    (ho : p ∈ own) (running : p ≠ .idle) (count : (frame.length : Int) = r)
    (writes : s.world.writeAnswers = r :: ws) :
    engineStep s = .next ((s.exchanged [.wrote frame r] ws s.world.readAnswers).enterPhase (Phase.next p)) := by
  rw [h, sendFrame_own hp ho running, if_pos ((nextCount_of_answers writes).trans count.symm),
    afterWrite_of_answers writes]

/-- 44_engine_operations.md R164, R165: the two frames between the waits of a `READ_DATA`. -/
theorem runSteps_readFrames (hp : s.phase = .rdLen) (hh : s.world.host = []) (hm : s.rModule = ModuleId.code m)
    (writes : s.world.writeAnswers = 4 :: 4 :: ws) :
    runSteps 2 s = .next ((s.exchanged [.wrote (lengthFrame s.rWc) 4, .wrote (commandFrame (moduleByte m) s.rCmdid) 4]
      ws s.world.readAnswers).enterWait .rdWaitB) := by
  have module : ModuleId.ofByte s.rModule = some m := ModuleId.ofByte_eq_some.mpr hm
  refine runSteps_cons hh (engineStep_sent (engineStep_rdLen hp) hp (by decide) (by decide) (r := 4) rfl writes) ?_
  refine runSteps_cons hh
    (engineStep_sent (p := .rdCmd) (r := 4) (engineStep_rdCmd rfl module) rfl (by decide) (by decide) rfl rfl) ?_
  simp [State.exchanged, State.enterPhase, Phase.next, Phase.isWait, State.enterWait, runSteps, Nat.add_assoc]

/-- 44_engine_operations.md R167, R168: the select frame of the data register, and the read of the payload. -/
theorem runSteps_readPayload (hp : s.phase = .rdSel) (hh : s.world.host = []) (fits : s.rWc.toNat ≤ 512)
    (len : bs.length = 2 * s.rWc.toNat) (writes : s.world.writeAnswers = 2 :: ws)
    (reads : s.world.readAnswers = .delivered bs :: as) :
    runSteps 2 s = .next { s.exchanged [.wrote dataSelFrame 2, .readBack bs.length bs.length bs] ws as with
      rxbuf := Memory.writeRun s.rxbuf 0 bs, resLen := BitVec.ofNat 16 bs.length, resKind := .ok
      busy := false, done := true, phase := .idle } := by
  have capacity : byteLen s.rWc ≤ Config.capBytes := Nat.mul_le_mul_left 2 fits
  have count : byteLen s.rWc = bs.length := len.symm
  refine runSteps_cons hh (engineStep_sent (engineStep_rdSel hp) hp (by decide) (by decide) (r := 2) rfl writes) ?_
  refine runSteps_cons hh (engineStep_rdData (s := State.enterPhase .rdData (s.exchanged _ ws s.world.readAnswers)) rfl
    capacity (nextRead_of_answers reads) len) ?_
  rw [afterRead_of_answers (by exact reads), storeResponse_rdData rfl]
  simp [State.exchanged, State.enterPhase, Phase.isWait, runSteps, Nat.add_assoc, count]

/-- 44_engine_operations.md R170: bytes that the host wrote leave `TXBUF` as they are. -/
theorem txRun_of_read (h : ∀ i x, bs[i]? = some x → Memory.read s.txbuf i = some x) : s.txRun bs.length = bs := by
  refine List.ext_getElem (txRun_length s _) fun i _ hi => ?_
  rw [← txByte_of_read (h i bs[i] (List.getElem?_eq_getElem hi))]
  simp [State.txRun]

/-- 44_engine_operations.md R170 to R172: the three frames between the waits of a `WRITE_DATA`. -/
theorem runSteps_writeFrames (hp : s.phase = .wrData) (hh : s.world.host = []) (hm : s.rModule = ModuleId.code m)
    (fits : s.rWc.toNat ≤ 512) (len : bs.length = 2 * s.rWc.toNat)
    (written : ∀ i x, bs[i]? = some x → Memory.read s.txbuf i = some x)
    (writes : s.world.writeAnswers = (2 * (s.rWc.toNat : Int) + 2) :: 4 :: 4 :: ws) :
    runSteps 3 s = .next ((s.exchanged [.wrote (payloadFrame bs) (2 * (s.rWc.toNat : Int) + 2),
      .wrote (lengthFrame (writeLenField s.build.writeLenMode s.rWc)) 4,
      .wrote (commandFrame (moduleByte m) (s.rCmdid + 1#8)) 4] ws s.world.readAnswers).enterWait .wrWaitB) := by
  have capacity : byteLen s.rWc ≤ Config.capBytes := Nat.mul_le_mul_left 2 fits
  have module : ModuleId.ofByte s.rModule = some m := ModuleId.ofByte_eq_some.mpr hm
  have run : s.txRun (byteLen s.rWc) = bs := by rw [byteLen, ← len, txRun_of_read written]
  have payload := engineStep_wrData hp capacity
  rw [run] at payload
  have count : ((payloadFrame bs).length : Int) = 2 * (s.rWc.toNat : Int) + 2 := by simp [len]
  refine runSteps_cons hh (engineStep_sent payload hp (by decide) (by decide) count writes) ?_
  refine runSteps_cons hh
    (engineStep_sent (p := .wrLen) (r := 4) (engineStep_wrLen rfl) rfl (by decide) (by decide) rfl rfl) ?_
  refine runSteps_cons hh
    (engineStep_sent (p := .wrCmd) (r := 4) (engineStep_wrCmd rfl module) rfl (by decide) (by decide) rfl rfl) ?_
  simp [State.exchanged, State.enterPhase, Phase.next, Phase.isWait, State.enterWait, runSteps, Nat.add_assoc]

/-! ### The two operations -/

/-- Settles O58: the request, the first wait, the two frames, the second wait, and the payload, one after the other. -/
theorem wholeReadDataDeliversThePayload : Obligations.WholeReadDataDeliversThePayload := by
  intro m c w w1 w2 r1 r2 p s hp hh hq fits len fits1 fits2 notReady ready1 ready2 writes reads
  obtain ⟨notReady1, notReady2⟩ := List.forall_mem_append.mp notReady
  rw [List.append_assoc, List.append_assoc] at writes
  rw [List.append_assoc] at reads
  have run := runSteps_trans (runSteps_one hh (engineStep_accepted hp hq (by decide) fits)) <|
    runSteps_trans (runSteps_wait_next (p := .rdWaitA) rfl rfl nofun ⟨rfl, hh, fits1, notReady1, ready1, writes, reads⟩) <|
    runSteps_trans (runSteps_readFrames (m := m) rfl hh rfl rfl) <|
    runSteps_trans (runSteps_wait_next (p := .rdWaitB) rfl rfl nofun ⟨rfl, hh, fits2, notReady2, ready2, rfl, rfl⟩) <|
    runSteps_readPayload rfl hh fits len rfl rfl
  have total : 1 + (2 * (w1.length + 1) + (2 + (2 * (w2.length + 1) + 2))) =
      2 * (w1.length + 1) + 2 * (w2.length + 1) + 5 := by omega
  rw [total] at run
  have resLen : (BitVec.ofNat 16 p.length).toNat = 2 * w.toNat := by rw [BitVec.toNat_ofNat]; omega
  exact ⟨_, run, rfl, rfl, rfl, rfl, rfl, resLen, rfl, rfl, rfl, rfl, rfl, rfl, rfl, rfl, rfl, rfl,
    fun _ => read_writeRun_zero_of_lt _, fun _ => read_writeRun_zero_of_le _⟩

/-- Settles O59: the request, the first wait, the three frames, and the second wait, which ends the operation. -/
theorem wholeWriteDataSendsPayloadLengthCommand : Obligations.WholeWriteDataSendsPayloadLengthCommand := by
  intro m c w w1 w2 r1 r2 p s hp hh hq fits len written fits1 fits2 notReady ready1 ready2 writes reads
  obtain ⟨notReady1, notReady2⟩ := List.forall_mem_append.mp notReady
  rw [List.append_assoc] at writes
  have run := runSteps_trans (runSteps_one hh (engineStep_accepted hp hq (by decide) fits)) <|
    runSteps_trans (runSteps_wait_next (p := .wrWaitA) rfl rfl nofun ⟨rfl, hh, fits1, notReady1, ready1, writes, reads⟩) <|
    runSteps_trans (runSteps_writeFrames (m := m) rfl hh rfl fits len written rfl) <|
    runSteps_wait_last rfl ⟨rfl, hh, fits2, notReady2, ready2, (List.append_nil _).symm, (List.append_nil _).symm⟩
  have total : 1 + (2 * (w1.length + 1) + (3 + 2 * (w2.length + 1))) =
      2 * (w1.length + 1) + 2 * (w2.length + 1) + 4 := by omega
  rw [total] at run
  refine ⟨_, run, ?_, rfl, rfl, rfl, rfl, rfl, rfl, rfl, rfl, rfl, rfl, rfl, rfl, rfl, rfl, rfl, rfl⟩
  rw [← lo8_writeLenField s.build.writeLenMode]; rfl

end WholeOperations

end Sys2Proof.Machine
end

section
/-! SUPPORT. The proofs of the statements of 60_exceptions.md: every step of the block answers a next state. -/

namespace Sys2Proof.Machine

/-! ## No step stops the machine

The engine in an operation answers by the invariant (`State.Inv.exists_engineStep`); the idle engine answers a request
always, and a primitive called on its own where it is well formed. -/

section NoStop

variable {s : State}

/-- A well-formed instruction has a meaning in every state: the five rows that check an operand pass their check, and no
other row has one (log entry 23). -/
theorem exists_exec_of_wellFormed {i : Instr} (wf : i.wellFormed s.build.writeLenMode = true) :
    ∃ t, exec i s = .next t := by
  cases i with
  | lenWr len => exact ⟨_, exec_lenWr wf⟩
  | dataWr p =>
    obtain ⟨even, fits⟩ := payloadOk_iff.mp wf
    exact ⟨_, exec_dataWr even fits⟩
  | dataRsp p =>
    obtain ⟨even, fits⟩ := payloadOk_iff.mp wf
    exact ⟨_, exec_dataRsp even fits⟩
  | packWrite d wc => exact ⟨_, exec_packWrite (wellFormed_packWrite_iff.mp wf)⟩
  | unpackRead r wc => exact ⟨_, exec_unpackRead (wellFormed_unpackRead_iff.mp wf)⟩
  | _ => exact ⟨_, rfl⟩

/-- A primitive called on its own, if there is one, is well formed (log entry 8). -/
def State.CallWellFormed (s : State) : Prop :=
  ∀ i, s.world.call = some i → i.wellFormed s.build.writeLenMode = true

/-- Neither an access of the host nor a reset touches the build (log entry 2). -/
@[simp] theorem serve_build (a : HostAct) : (s.serve a).build = s.build := by cases a <;> rfl

theorem State.CallWellFormed.serve (hc : s.CallWellFormed) (a : HostAct) : State.CallWellFormed (s.serve a) := by
  intro i
  rw [serve_world_call, serve_build]
  exact hc i

/-- The idle engine answers a request, whatever its word (60_exceptions.md R199), runs a well-formed call, or waits. -/
theorem exists_engineStep_of_idle (hp : s.phase = .idle) (hc : s.CallWellFormed) : ∃ t, engineStep s = .next t := by
  cases hq : s.hreq with
  | some q => exact ⟨_, engineStep_request hp hq⟩
  | none =>
    cases hcall : s.world.call with
    | some i =>
      rw [engineStep_call hp hq hcall]
      exact exists_exec_of_wellFormed (hc i hcall)
    | none => exact ⟨_, engineStep_idle hp hq hcall⟩

/-- 60_exceptions.md R200: the engine answers, idle or in an operation. -/
theorem State.Inv.exists_engineStep_of_callWellFormed (hi : s.Inv) (hc : s.CallWellFormed) :
    ∃ t, Machine.engineStep s = .next t := by
  by_cases hp : s.phase = .idle
  · exact exists_engineStep_of_idle hp hc
  · exact hi.exists_engineStep hp

/-- Settles O55: a step is an access of the host, which answers at once, or the engine's, from a state that an access
leaves within the invariant and with its call well formed. -/
theorem noStepStopsTheMachine : Obligations.NoStepStopsTheMachine := by
  intro s hi hc
  obtain e | ⟨a, -, rest, -, ⟨-, e⟩ | ⟨-, e⟩⟩ := step_cases s <;> rw [e]
  · exact hi.exists_engineStep_of_callWellFormed hc
  · have served : State.Inv (s.withHost rest) := hi.withWorld fun _ h => h
    have call : State.CallWellFormed (s.withHost rest) := hc
    exact (served.serve a).exists_engineStep_of_callWellFormed (call.serve a)
  · exact ⟨_, rfl⟩

end NoStop

end Sys2Proof.Machine
end

section
/-! SUPPORT. The proofs of the statements of 70_reset_and_hazards.md: the length frame of a write of more than 255 words,
and the access that a reset releases. -/

namespace Sys2Proof.Machine

/-! ## The count of a long write -/

section LongWrite

/-- 42_command_encoder.md R142: the bytes of the write length frame under `LOW_BYTE`, whatever the count. -/
theorem lengthFrame_lowByte (wc : Half) :
    lengthFrame (writeLenField .lowByte wc) = [0x00#8, 0x06#8, 0x00#8, BitVec.ofNat 8 (wc.toNat % 256)] := by
  rw [lengthFrame, writeLenField, hi8_be16, lo8_be16]
  rfl

/-- Settles O41: the frame holds the low byte of the count alone, and the device took all its four bytes. -/
theorem longWritesAnnounceTheirCountModulo256 : Obligations.LongWritesAnnounceTheirCountModulo256 := by
  intro s hp hh mode _ _ taken
  rw [step_of_no_host hh, engineStep_wrLen hp, mode, lengthFrame_lowByte, sendFrame_own hp (by decide) (by decide)]
  exact congrArg Host.Outcome.next (if_pos taken)

end LongWrite

/-! ## The reset behind a held access -/

section ResetRelease

variable {s : State} {a : HostAct} {more : List HostAct}

/-- 70_reset_and_hazards.md R221: the reset behind a held access takes effect, with that access still to come. -/
theorem step_held_reset (hb : s.busy = true) (ha : a ∉ [HostAct.pass, .reset, .readHstat])
    (hh : s.world.host = a :: .reset :: more) : step s = .next ((s.withHost (a :: more)).serve .reset) :=
  step_held hb hh ha rfl

/-- With an empty port, the accesses to come after the reset are those that were listed. -/
theorem serve_reset_world_host (hq : s.hreq = none) : (s.serve .reset).world.host = s.world.host :=
  released_none s hq

/-- Settles O60: the block just come up holds nothing, so its first step serves the access that was held. -/
theorem resetReleasesAHeldAccess : Obligations.ResetReleasesAHeldAccess := by
  intro a more s hb hq ha hh
  have host : ((s.withHost (a :: more)).serve .reset).world.host = a :: more := serve_reset_world_host hq
  refine ⟨_, step_held_reset hb ha hh, rfl, rfl, rfl, rfl, rfl, rfl, host, ?_, ?_, ?_⟩
  · rintro i b rfl
    exact ⟨_, step_serve_idle rfl rfl host rfl, Memory.read_write_same _ _ _, rfl⟩
  · rintro q rfl
    exact (hreqWriteIsTakenByTheStartStep q more _ rfl rfl rfl host).1
  · rintro rfl
    exact step_serve_idle rfl rfl host rfl

end ResetRelease

end Sys2Proof.Machine
end
